-- ==== Sys2Proof/Word.lean ====
section
/-! DEFINITION. The word types of the command port (spec/00_scope.md R7, R8).
Every number of the core is an unsigned bit vector, bit 0 the least significant (R12). -/

namespace Sys2Proof

/-- The command word `cmd`, 16 bits (30_encoding.md R62). -/
abbrev CmdWord := BitVec 16

/-- The operand `arg`, the result `rsp` and the raw log record, 32 bits (00_scope.md R7, R8). -/
abbrev Word := BitVec 32

/-- The CRC-16 value and accumulator, 16 bits (00_scope.md R7). -/
abbrev Half := BitVec 16

/-- The CRC-16 input unit and the ROM index, 8 bits (00_scope.md R7, 20_memory.md R41). -/
abbrev Byte := BitVec 8

end Sys2Proof
end

