-- ==== Sys2Proof/Syntax.lean ====
section
/-! DEFINITION. The commands of the core (30_encoding.md R64; spec/opcode_table.json), one constructor per row. -/

namespace Sys2Proof

/-- A command with the operand it uses (00_scope.md R16, "command": one (cmd, arg) pair).
A command that ignores `arg` altogether (92_eei_decisions.md D25) holds none; the others hold all 32 bits of it, and
their meaning says which bits it reads (30_encoding.md R63). -/
inductive Instr where
  /-- No operation (R73). -/
  | nop
  /-- Start a CRC-16 computation (R81). -/
  | c16init
  /-- Feed one byte, arg[7:0] (R82). -/
  | c16byte (arg : Word)
  /-- Deliver the CRC-16 (R83). -/
  | c16fin
  /-- CRC-5 of the payload arg[10:0] (R95). -/
  | c5 (arg : Word)
  /-- Extract the `w` bits of `arg` from bit `o` on (R104). -/
  | extr (o : BitVec 5) (w : BitVec 6) (arg : Word)
  /-- Extract and expand the packet identifier (R106). -/
  | xpid (arg : Word)
  /-- Cycle-delta telemetry (R107). -/
  | xcyc (arg : Word)
  /-- Reset-state telemetry (R108). -/
  | xrst (arg : Word)
  /-- Token device address (R109). -/
  | xtaddr (arg : Word)
  /-- Token endpoint (R110). -/
  | xtep (arg : Word)
  /-- Expected CRC-5 of a token record (R111). -/
  | xtcrc (arg : Word)
  /-- Data length (R112). -/
  | xlen (arg : Word)
  /-- SOF frame number (R113). -/
  | xframe (arg : Word)
  /-- Expected CRC-5 of an SOF record (R114). -/
  | xscrc (arg : Word)
  /-- Split hub address (R115). -/
  | xshub (arg : Word)
  /-- Split-complete flag (R116). -/
  | xssc (arg : Word)
  deriving DecidableEq, Repr, Inhabited

end Sys2Proof
end

