-- ==== Sys2Proof/WellFormed.lean ====
section
/-! DEFINITION. Which terms of `Instr` are commands (30_encoding.md R63). -/

namespace Sys2Proof

/-- The legal widths of EXTR, 1..32 (30_encoding.md R63, R67). -/
def legalWidth (w : BitVec 6) : Bool := decide (1 ≤ w.toNat) && decide (w.toNat ≤ 32)

/-- A term stands for a command that some command word encodes: every operand field is in its legal range.
Only EXTR has a field with illegal values (30_encoding.md R63); the operand `arg` has none as an encoding. -/
def Instr.wellFormed : Instr → Bool
  | .nop => true
  | .c16init => true
  | .c16byte _ => true
  | .c16fin => true
  | .c5 _ => true
  | .extr _ w _ => legalWidth w
  | .xpid _ => true
  | .xcyc _ => true
  | .xrst _ => true
  | .xtaddr _ => true
  | .xtep _ => true
  | .xtcrc _ => true
  | .xlen _ => true
  | .xframe _ => true
  | .xscrc _ => true
  | .xshub _ => true
  | .xssc _ => true

end Sys2Proof
end

