-- ==== Sys2Proof/Decode.lean ====
section
/-! DEFINITION. The total decoder of 30_encoding.md R69 and, after it, the encoder written from the formats of R62 and
the opcode map of R64. -/

namespace Sys2Proof

/-- Why the decoder refuses a command word (60_exceptions.md R133, the rows "raised by decode"). -/
inductive DecodeError where
  /-- cmd[15:11] is 0x06, 0x07 or 0x13..0x1F (R65). -/
  | reservedOpcode
  /-- EXTR with W = 0 or W > 32 (R67). -/
  | extractWidth
  /-- A format-N opcode with cmd[10:0] not zero (R66). -/
  | reservedField
  deriving DecidableEq, Repr

/-- OP = cmd[15:11] (R62). -/
def opField (cmd : CmdWord) : BitVec 5 := cmd.extractLsb' 11 5

/-- W = cmd[10:5] (R62). -/
def widthField (cmd : CmdWord) : BitVec 6 := cmd.extractLsb' 5 6

/-- O = cmd[4:0] (R62). -/
def offsetField (cmd : CmdWord) : BitVec 5 := cmd.extractLsb' 0 5

/-- cmd[10:0], which format N requires to be zero (R62, R66). -/
def lowField (cmd : CmdWord) : BitVec 11 := cmd.extractLsb' 0 11

/-- The reserved opcodes 0x06, 0x07 and 0x13 through 0x1F (R65). -/
def reservedOp (op : BitVec 5) : Bool := op == 0x06#5 || op == 0x07#5 || decide (0x13 ≤ op.toNat)

/-- The format-N command of an opcode (the opcode map, R64), none for 0x05 and the reserved opcodes. -/
def formatN (op : BitVec 5) (arg : Word) : Option Instr :=
  if op = 0x00#5 then some .nop
  else if op = 0x01#5 then some .c16init
  else if op = 0x02#5 then some (.c16byte arg)
  else if op = 0x03#5 then some .c16fin
  else if op = 0x04#5 then some (.c5 arg)
  else if op = 0x08#5 then some (.xpid arg)
  else if op = 0x09#5 then some (.xcyc arg)
  else if op = 0x0A#5 then some (.xrst arg)
  else if op = 0x0B#5 then some (.xtaddr arg)
  else if op = 0x0C#5 then some (.xtep arg)
  else if op = 0x0D#5 then some (.xtcrc arg)
  else if op = 0x0E#5 then some (.xlen arg)
  else if op = 0x0F#5 then some (.xframe arg)
  else if op = 0x10#5 then some (.xscrc arg)
  else if op = 0x11#5 then some (.xshub arg)
  else if op = 0x12#5 then some (.xssc arg)
  else none

/-- The decoder of R69, total on all 65536 command words; `arg` is the operand sampled with the word (R60).
The checks stand in the order of 60_exceptions.md R135. -/
def decode (cmd : CmdWord) (arg : Word) : Except DecodeError Instr :=
  if reservedOp (opField cmd) then .error .reservedOpcode
  else if opField cmd = 0x05#5 then
    if legalWidth (widthField cmd) then .ok (.extr (offsetField cmd) (widthField cmd) arg)
    else .error .extractWidth
  else if lowField cmd ≠ 0#11 then .error .reservedField
  else
    match formatN (opField cmd) arg with
    | some i => .ok i
    | none => .error .reservedOpcode

/-- The opcode of each command (the opcode map, R64). -/
def Instr.opcode : Instr → BitVec 5
  | .nop => 0x00#5
  | .c16init => 0x01#5
  | .c16byte _ => 0x02#5
  | .c16fin => 0x03#5
  | .c5 _ => 0x04#5
  | .extr _ _ _ => 0x05#5
  | .xpid _ => 0x08#5
  | .xcyc _ => 0x09#5
  | .xrst _ => 0x0A#5
  | .xtaddr _ => 0x0B#5
  | .xtep _ => 0x0C#5
  | .xtcrc _ => 0x0D#5
  | .xlen _ => 0x0E#5
  | .xframe _ => 0x0F#5
  | .xscrc _ => 0x10#5
  | .xshub _ => 0x11#5
  | .xssc _ => 0x12#5

/-- cmd[10:0] of each command: W and O in format X, zero in format N (R62). -/
def Instr.lowBits : Instr → BitVec 11
  | .extr o w _ => (w.setWidth 11 <<< 5) ||| o.setWidth 11
  | .nop => 0#11
  | .c16init => 0#11
  | .c16byte _ => 0#11
  | .c16fin => 0#11
  | .c5 _ => 0#11
  | .xpid _ => 0#11
  | .xcyc _ => 0#11
  | .xrst _ => 0#11
  | .xtaddr _ => 0#11
  | .xtep _ => 0#11
  | .xtcrc _ => 0#11
  | .xlen _ => 0#11
  | .xframe _ => 0#11
  | .xscrc _ => 0#11
  | .xshub _ => 0#11
  | .xssc _ => 0#11

/-- The command word of a command: the opcode in bits 15:11, the low field in bits 10:0 (R62). -/
def encodeCmd (i : Instr) : CmdWord := (i.opcode.setWidth 16 <<< 11) ||| i.lowBits.setWidth 16

/-- The operand issued with a command. `nop`, `c16init` and `c16fin` assemble with arg = 0 (R70). -/
def encodeArg : Instr → Word
  | .nop => 0#32
  | .c16init => 0#32
  | .c16byte arg => arg
  | .c16fin => 0#32
  | .c5 arg => arg
  | .extr _ _ arg => arg
  | .xpid arg => arg
  | .xcyc arg => arg
  | .xrst arg => arg
  | .xtaddr arg => arg
  | .xtep arg => arg
  | .xtcrc arg => arg
  | .xlen arg => arg
  | .xframe arg => arg
  | .xscrc arg => arg
  | .xshub arg => arg
  | .xssc arg => arg

/-- The pair `cmd:arg` of R70 for a command. -/
def encode (i : Instr) : CmdWord × Word := (encodeCmd i, encodeArg i)

/-- The first word of a number whose bits 15:0 are the command word (DESIGN CHOICE, log entry 11). -/
def tableCmd (nbits w : Nat) : CmdWord := BitVec.ofNat 16 (w % 2 ^ nbits)

/-- The operand of a number whose bits 47:16 are `arg` (DESIGN CHOICE, log entry 11). -/
def tableArg (nbits w : Nat) : Word := BitVec.ofNat 32 (w % 2 ^ nbits / 2 ^ 16)

/-- The command the decoder reads from an opcode-table number: bits 15:0 are `cmd`, bits 47:16 are `arg`, and every
bit from `nbits` on is 0. A table row has 16 bits, so its operand is 0. -/
def decodeTableWord (nbits w : Nat) : Option Instr :=
  match decode (tableCmd nbits w) (tableArg nbits w) with
  | .ok i => some i
  | .error _ => none

end Sys2Proof
end

