-- ==== Sys2Proof/Config.lean ====
section
/-! DEFINITION. What an implementation fixes, and the free values.
LAYOUT (00_scope.md R9, 42_extract.md R101), LAT_op (00_scope.md R10), and the values the spec leaves unspecified
(10_state.md R25). The constants without a body are free: nothing can be proved of their values. -/

namespace Sys2Proof

/-- The record fields f that LAYOUT has a pair (OFF_f, MASK_f) for (00_scope.md R9). -/
inductive RecordField where
  | pid
  | cycle
  | reset
  | token
  | length
  | frame
  | split
  deriving DecidableEq, Repr, Inhabited

/-- A LAYOUT that meets 42_extract.md R101, so that an illegal one cannot be built: each offset is a 5-bit
number (0..31, the select lines of the mux tree of R102), each free mask any 32-bit value.
MASK_PID = 0xF and MASK_FRAME = 0x7FF are fixed by R101 and so are no fields (`Layout.mask` gives them).
The sub-field offsets have the defaults of R101. -/
structure Layout where
  offPid     : BitVec 5
  offCycle   : BitVec 5
  offReset   : BitVec 5
  offToken   : BitVec 5
  offLength  : BitVec 5
  offFrame   : BitVec 5
  offSplit   : BitVec 5
  maskCycle  : Word
  maskReset  : Word
  maskToken  : Word
  maskLength : Word
  maskSplit  : Word
  tokAddrOff : BitVec 5 := 0
  tokEpOff   : BitVec 5 := 7
  splHubOff  : BitVec 5 := 0
  splScOff   : BitVec 5 := 7
  deriving DecidableEq, Repr, Inhabited

/-- One pair (OFF_f, MASK_f) as a builder of the hardware writes it down, not yet checked. -/
structure FieldSpec where
  off  : Nat
  mask : Word
  deriving DecidableEq, Repr, Inhabited

/-- A LAYOUT as it is supplied at build time, not yet checked against 42_extract.md R101 (60_exceptions.md R141,
"supply layout"). `RawLayout.legal` is that check and `RawLayout.toLayout` the layout a legal table stands for. -/
structure RawLayout where
  pid        : FieldSpec
  cycle      : FieldSpec
  reset      : FieldSpec
  token      : FieldSpec
  length     : FieldSpec
  frame      : FieldSpec
  split      : FieldSpec
  tokAddrOff : Nat := 0
  tokEpOff   : Nat := 7
  splHubOff  : Nat := 0
  splScOff   : Nat := 7
  deriving DecidableEq, Repr, Inhabited

/-- DESIGN CHOICE (log entry 1). The LAYOUT this hardware was built with: OPEN in the spec (92_eei_decisions.md D13),
so a free constant. The state after reset carries it; a statement about every state holds for every LAYOUT. -/
opaque Config.layout : Layout

/-- DESIGN CHOICE (log entry 12). LAT_op less the one cycle every command takes at least (00_scope.md R10): free. -/
opaque Config.latencyBeyondFirst : BitVec 5 → Nat

/-- LAT_op of 00_scope.md R10: the cycles from acceptance to completion, at least 1 and finite. -/
def Config.latency (op : BitVec 5) : Nat := Config.latencyBeyondFirst op + 1

/-- DESIGN CHOICE (log entry 5). The free value C5_C is left with after the k-th run of CRC5U (10_state.md R25:
"unspecified"). -/
opaque Config.freeC5C : Nat → BitVec 16

/-- DESIGN CHOICE (log entry 5). The free value C5_D is left with after the k-th run of CRC5U. -/
opaque Config.freeC5D : Nat → BitVec 16

/-- DESIGN CHOICE (log entry 5). The free value C5_N is left with after the k-th run of CRC5U. -/
opaque Config.freeC5N : Nat → BitVec 4

end Sys2Proof
end

