-- ==== Sys2Proof/Machine/State.lean ====
section
/-! DEFINITION. The state of the machine (10_state.md R21, R32), the reasons it stops, and the state after reset
(70_reset_and_hazards.md R150). -/

namespace Sys2Proof.Machine

/-- The reasons for a fault (60_exceptions.md R134 has exactly one). -/
inductive Fault where
  /-- Raised by a host read of `rsp` while RSP_VALID = 0 (10_state.md R23, 60_exceptions.md R134). Safe: the model gives no value where the
  hardware defines none. -/
  | unwrittenResult
  deriving DecidableEq, Repr

/-- The reasons for a refusal (60_exceptions.md R133). -/
inductive Refusal where
  /-- Raised by an arm of `exec` whose command has no meaning yet; no arm raises it now. Safe: nothing is claimed. -/
  | notModelled (mnemonic : String)
  /-- Raised by the configuration, before any step: LAYOUT breaks 42_extract.md R101. Safe: nothing is claimed. -/
  | badLayout
  /-- Raised by decode: cmd[15:11] is a reserved opcode (30_encoding.md R65). Safe: nothing is claimed. -/
  | reservedOpcode
  /-- Raised by decode, and by EXTR itself: W = 0 or W > 32 (30_encoding.md R67, 42_extract.md R104).
  Safe: nothing is claimed. -/
  | extractWidth
  /-- Raised by decode: a format-N word with cmd[10:0] not zero (30_encoding.md R66). Safe: nothing is claimed. -/
  | reservedField
  /-- Raised by C5: arg[31:11] is not zero (41_crc5.md R95). Safe: nothing is claimed. -/
  | widePayload
  deriving DecidableEq, Repr

/-- The internal registers of CRC5U: C5_C, C5_D and C5_N (10_state.md R25). -/
structure C5Regs where
  c : BitVec 16
  d : BitVec 16
  n : BitVec 4
  deriving DecidableEq, Repr, Inhabited

/-- A command in progress: the word and operand sampled at acceptance (30_encoding.md R60) and the cycles left until
it completes (00_scope.md R10). DESIGN CHOICE (log entry 6): BUSY = 1 is that there is one. -/
structure Flight where
  cmd  : CmdWord
  arg  : Word
  left : Nat
  deriving DecidableEq, Repr

/-- What the host may do to the core (60_exceptions.md R141). -/
inductive HostAction where
  /-- Issue the command `cmd` with the operand `arg`. -/
  | issue (cmd : CmdWord) (arg : Word)
  /-- Read the port `rsp`. -/
  | readRsp
  /-- Assert `rst`. -/
  | reset
  deriving DecidableEq, Repr

/-- The machine's state: the core's registers, its configuration, the model's two marks, and the host's side.
INVENTORY.md's heading State names the rule of every field. -/
structure State where
  /-- ACC16, the CRC-16 accumulator (R22). -/
  acc16       : Half
  /-- RSP, the result register (R23). -/
  rsp         : Word
  /-- RSP_VALID (R23). -/
  rspValid    : Bool
  /-- The command in progress; BUSY (R24) is 1 exactly when there is one (log entry 6). -/
  inFlight    : Option Flight
  /-- C5_C, C5_D, C5_N (R25). -/
  c5          : C5Regs
  /-- LAYOUT (00_scope.md R9): configuration that no step changes (log entry 1). -/
  layout      : Layout
  /-- The REFUSED mark with its reason (R32, 60_exceptions.md R133). -/
  refusedMark : Option Refusal
  /-- The fault record (R32, 60_exceptions.md R134). -/
  faultRecord : Option Fault
  /-- The host's actions not yet performed, the next one first (log entry 8). -/
  pending     : List HostAction
  /-- The program position: the index of the next command to issue (R29). -/
  position    : Nat
  /-- The values the host has read from `rsp`, the oldest first (log entry 9). -/
  received    : List Word
  /-- The model's own counter of free values drawn (log entry 5). -/
  draws       : Nat
  deriving DecidableEq, Repr

/-- The state after reset (70_reset_and_hazards.md R150). RSP and C5_* have no value there by the spec; their zeros
are DESIGN CHOICES (log entries 3 and 4). The host has issued nothing and has nothing pending (log entry 8). -/
def State.reset : State where
  acc16       := 0xFFFF#16
  rsp         := 0#32
  rspValid    := false
  inFlight    := none
  c5          := { c := 0#16, d := 0#16, n := 0#4 }
  layout      := Config.layout
  refusedMark := none
  faultRecord := none
  pending     := []
  position    := 0
  received    := []
  draws       := 0

end Sys2Proof.Machine
end

