-- ==== Sys2Proof/Machine/Flags.lean ====
section
/-! DEFINITION. The two flags the core has, RSP_VALID and BUSY, as the ports show them (10_state.md R23, R24, R30),
and the model's marks. No command sets any other flag: there is no carry, overflow, zero or CRC-match flag. -/

namespace Sys2Proof.Machine

/-- BUSY: 1 from acceptance until the command's effects are complete (10_state.md R24). -/
def State.busy (s : State) : Bool := s.inFlight.isSome

/-- The port `cmd_ready` = ~BUSY (30_encoding.md R60). -/
def State.cmdReady (s : State) : Bool := !s.busy

/-- The state carries neither the REFUSED mark nor a fault (30_encoding.md R61). -/
def State.unmarked (s : State) : Bool := s.refusedMark.isNone && s.faultRecord.isNone

end Sys2Proof.Machine
end

