-- ==== Sys2Proof/Machine/Operands.lean ====
section
/-! DEFINITION. Operand assembly: LAYOUT legality, the mux tree, fields and sub-fields
(00_scope.md R13, 42_extract.md R101-R103). -/

namespace Sys2Proof

/-- mask(W): bits W-1..0 set, for 1 <= W <= 32 (00_scope.md R13). -/
def maskOf (w : Nat) : Word := BitVec.ofNat 32 (2 ^ w - 1)

/-- OFF_f of a LAYOUT (00_scope.md R9). -/
def Layout.off (l : Layout) : RecordField → BitVec 5
  | .pid => l.offPid
  | .cycle => l.offCycle
  | .reset => l.offReset
  | .token => l.offToken
  | .length => l.offLength
  | .frame => l.offFrame
  | .split => l.offSplit

/-- MASK_f of a LAYOUT (00_scope.md R9); MASK_PID = 0xF and MASK_FRAME = 0x7FF are fixed (42_extract.md R101). -/
def Layout.mask (l : Layout) : RecordField → Word
  | .pid => 0xF#32
  | .cycle => l.maskCycle
  | .reset => l.maskReset
  | .token => l.maskToken
  | .length => l.maskLength
  | .frame => 0x7FF#32
  | .split => l.maskSplit

/-- An offset is legal when it is an integer 0..31 (42_extract.md R101). -/
def legalOff (n : Nat) : Bool := decide (n < 32)

/-- The legal values of a LAYOUT (42_extract.md R101). -/
def RawLayout.legal (r : RawLayout) : Bool :=
  legalOff r.pid.off && legalOff r.cycle.off && legalOff r.reset.off && legalOff r.token.off
    && legalOff r.length.off && legalOff r.frame.off && legalOff r.split.off
    && r.pid.mask == 0xF#32 && r.frame.mask == 0x7FF#32
    && legalOff r.tokAddrOff && legalOff r.tokEpOff && legalOff r.splHubOff && legalOff r.splScOff

/-- The LAYOUT a table supplied at build time stands for, when the table is legal (42_extract.md R101). -/
def RawLayout.toLayout (r : RawLayout) : Layout where
  offPid := BitVec.ofNat 5 r.pid.off
  offCycle := BitVec.ofNat 5 r.cycle.off
  offReset := BitVec.ofNat 5 r.reset.off
  offToken := BitVec.ofNat 5 r.token.off
  offLength := BitVec.ofNat 5 r.length.off
  offFrame := BitVec.ofNat 5 r.frame.off
  offSplit := BitVec.ofNat 5 r.split.off
  maskCycle := r.cycle.mask
  maskReset := r.reset.mask
  maskToken := r.token.mask
  maskLength := r.length.mask
  maskSplit := r.split.mask
  tokAddrOff := BitVec.ofNat 5 r.tokAddrOff
  tokEpOff := BitVec.ofNat 5 r.tokEpOff
  splHubOff := BitVec.ofNat 5 r.splHubOff
  splScOff := BitVec.ofNat 5 r.splScOff

namespace Machine

/-- One stage of the mux tree: a 2-to-1 multiplexer between a value and its shift by `k` (42_extract.md R102). -/
def muxStage (select : Bool) (k : Nat) (v : Word) : Word := if select then v >>> k else v

/-- SHR(v, o): the five stages s1..s5 of the mux tree (42_extract.md R102). -/
def shr (v : Word) (o : BitVec 5) : Word :=
  muxStage (o.getLsbD 4) 16 (muxStage (o.getLsbD 3) 8 (muxStage (o.getLsbD 2) 4
    (muxStage (o.getLsbD 1) 2 (muxStage (o.getLsbD 0) 1 v))))

/-- FIELD(r, f) = SHR(r, OFF_f) & MASK_f (42_extract.md R103). -/
def field (l : Layout) (f : RecordField) (r : Word) : Word := shr r (l.off f) &&& l.mask f

/-- A sub-field of a field: a second fixed shift and mask (42_extract.md R100, R109, R110, R115, R116). -/
def subField (v : Word) (o : BitVec 5) (m : Word) : Word := (v >>> o.toNat) &&& m

/-- The telemetry scaling, (v << 8)[31:0] (42_extract.md R107, R108). -/
def scale256 (v : Word) : Word := v <<< 8

/-- The 8-bit PID: the complement of the code in the upper nibble, the code in the lower (42_extract.md R106). -/
def expandPid (c : BitVec 4) : Byte := ~~~c ++ c

/-- arg[31:11] = 0: a payload C5 accepts (41_crc5.md R95). -/
def narrowPayload (arg : Word) : Bool := arg.extractLsb' 11 21 == 0#21

/-- arg[10:0], the CRC-5 payload (41_crc5.md R95, 42_extract.md R111, R114). -/
def payload (arg : Word) : BitVec 11 := arg.extractLsb' 0 11

/-- arg[7:0], the byte of C16BYTE (40_crc16.md R82). -/
def byteOperand (arg : Word) : Byte := arg.extractLsb' 0 8

end Machine

end Sys2Proof
end

