-- ==== Sys2Proof/Machine/Ops.lean ====
section
/-! DEFINITION. The operations the commands and the ports share. The core has no memory and takes no exception
(20_memory.md R40, 60_exceptions.md R130, R136), so no operation here reads memory or enters a handler. -/

namespace Sys2Proof.Machine

/-- `result(v)`: RSP <- zext_32(v), RSP_VALID <- 1 (00_scope.md R14, 10_state.md R23). -/
def result {n : Nat} (v : BitVec n) (s : State) : Host.Outcome State Fault Refusal :=
  .next { s with rsp := v.setWidth 32, rspValid := true }

/-- ACC16 <- v (10_state.md R22). -/
def setAcc (v : Half) (s : State) : Host.Outcome State Fault Refusal := .next { s with acc16 := v }

/-- After a run of CRC5U its registers hold no meaning (10_state.md R25, 41_crc5.md R94): each takes a fresh free
value (log entry 5). -/
def releaseC5 (s : State) : State :=
  { s with
    c5 := { c := Config.freeC5C s.draws, d := Config.freeC5D s.draws, n := Config.freeC5N s.draws }
    draws := s.draws + 1 }

/-- Apply `f` to the next state of an outcome; a fault or a refusal stays. -/
def mapNext (f : State → State) (o : Host.Outcome State Fault Refusal) : Host.Outcome State Fault Refusal :=
  match o with
  | .next s => .next (f s)
  | .fault r => .fault r
  | .refused r => .refused r

/-- Acceptance: the core samples `cmd` and `arg`, BUSY becomes 1, the program position advances by one
(30_encoding.md R60, 10_state.md R24, R29). -/
def accept (cmd : CmdWord) (arg : Word) (s : State) : State :=
  { s with
    inFlight := some { cmd := cmd, arg := arg, left := Config.latency (opField cmd) }
    position := s.position + 1 }

/-- Completion: BUSY becomes 0 (10_state.md R24). -/
def release (s : State) : State := { s with inFlight := none }

/-- The reset event at an edge with `rst` = 1: the core's registers take their values after reset, a command in
progress is abandoned, and LAYOUT, the marks and the host's side stay (70_reset_and_hazards.md R150). -/
def resetCore (s : State) : State :=
  { s with
    acc16 := State.reset.acc16
    rsp := State.reset.rsp
    rspValid := State.reset.rspValid
    inFlight := State.reset.inFlight
    c5 := State.reset.c5 }

/-- A host read of the port `rsp`: RSP, or the fault UnwrittenResult while RSP_VALID = 0. The spec states the fault: the
table of 60_exceptions.md R134, 10_state.md R23, 95_test_vectors.md V-R-01 and V-R-02. What is tested is the flag the
spec tests, whatever RSP holds. -/
def hostRead (s : State) : Host.Outcome Word Fault Refusal :=
  if s.rspValid then .next s.rsp else .fault .unwrittenResult

/-- The refusal a decoder's refusal stands for (60_exceptions.md R133). -/
def refusalOf : DecodeError → Refusal
  | .reservedOpcode => .reservedOpcode
  | .extractWidth => .extractWidth
  | .reservedField => .reservedField

/-- The hardware built with a LAYOUT and reset: an illegal LAYOUT sets the REFUSED mark with BadLayout before any step
(42_extract.md R101, 60_exceptions.md R133, R135). -/
def State.configured (raw : RawLayout) : State :=
  if raw.legal then { State.reset with layout := raw.toLayout }
  else { State.reset with refusedMark := some .badLayout }

/-- The opcode-table number `w` as the host's next command, on an idle and unmarked core (log entry 10). -/
def placeCommand (nbits w : Nat) (s : State) : State :=
  { s with
    pending := .issue (tableCmd nbits w) (tableArg nbits w) :: s.pending
    inFlight := none
    refusedMark := none
    faultRecord := none }

end Sys2Proof.Machine
end

