-- ==== Sys2Proof/Machine/Control.lean ====
section
/-! DEFINITION. The only command without a data effect (30_encoding.md R73, 60_exceptions.md R137). -/

namespace Sys2Proof.Machine

/-- NOP: no state changes (30_encoding.md R73). -/
def execNop (s : State) : Host.Outcome State Fault Refusal := .next s

end Sys2Proof.Machine
end

