-- ==== Sys2Proof/Machine/Crc5.lean ====
section
/-! DEFINITION. CRC5U, the bit-serial CRC-5 engine (41_crc5.md): mirroring, the LFSR iterations, finalisation, C5. -/

namespace Sys2Proof.Machine

/-- The mirrored data word: the two payload bytes mirrored, the low one in the high byte (41_crc5.md R91). -/
def mirrorPayload (p : BitVec 11) : BitVec 16 :=
  ((p.setWidth 16).extractLsb' 0 8).reverse ++ ((p.setWidth 16).extractLsb' 8 8).reverse

/-- The registers at the start: C5_C <- 0x1F << 11, C5_D <- the mirrored payload, C5_N <- 0 (41_crc5.md R91, R92). -/
def c5Load (p : BitVec 11) : C5Regs := { c := 0xF800#16, d := mirrorPayload p, n := 0#4 }

/-- One LFSR iteration (41_crc5.md R92); 0x2800 is 0x05 << 11. -/
def c5Iterate (r : C5Regs) : C5Regs :=
  { c := if r.d.msb ^^ r.c.msb then (r.c <<< 1) ^^^ 0x2800#16 else r.c <<< 1
    d := r.d <<< 1
    n := r.n + 1#4 }

/-- `k` iterations in a row. -/
def c5Iterations : Nat → C5Regs → C5Regs
  | 0, r => r
  | k + 1, r => c5Iterations k (c5Iterate r)

/-- The registers after the 11 iterations (41_crc5.md R92). -/
def c5Run (p : BitVec 11) : C5Regs := c5Iterations 11 (c5Load p)

/-- Finalisation: rev_5((C5_C >> 11)[4:0] ^ 0x1F) (41_crc5.md R93). -/
def c5Final (r : C5Regs) : BitVec 5 := ((r.c >>> 11).extractLsb' 0 5 ^^^ 0x1F#5).reverse

/-- CRC5(p), a function of the payload alone (41_crc5.md R94). -/
def crc5 (p : BitVec 11) : BitVec 5 := c5Final (c5Run p)

/-- Deliver the CRC-5 of a payload: CRC5U runs in C5_*, and its registers are left without meaning
(41_crc5.md R94, R95). The operation C5, XTCRC and XSCRC share. -/
def resultCrc5 (p : BitVec 11) (s : State) : Host.Outcome State Fault Refusal := result (crc5 p) (releaseC5 s)

/-- C5: the CRC-5 of arg[10:0]; a payload wider than 11 bits is refused (41_crc5.md R95). -/
def execC5 (arg : Word) (s : State) : Host.Outcome State Fault Refusal :=
  if narrowPayload arg then resultCrc5 (payload arg) s else .refused .widePayload

end Sys2Proof.Machine
end

