-- ==== Sys2Proof/Machine/Extract.lean ====
section
/-! DEFINITION. EXTU, the bit-field extractor (42_extract.md): EXTR and the eleven named field commands. -/

namespace Sys2Proof.Machine

/-- EXTR: result(SHR(arg, O) & mask(W)); an illegal width is refused (42_extract.md R104). -/
def execExtr (o : BitVec 5) (w : BitVec 6) (arg : Word) (s : State) : Host.Outcome State Fault Refusal :=
  if legalWidth w then result (shr arg o &&& maskOf w.toNat) s else .refused .extractWidth

/-- XPID: the 4-bit code expanded to the 8-bit PID (42_extract.md R106). -/
def execXpid (arg : Word) (s : State) : Host.Outcome State Fault Refusal :=
  result (expandPid ((field s.layout .pid arg).extractLsb' 0 4)) s

/-- XCYC: cycle-delta telemetry times 256 (42_extract.md R107). -/
def execXcyc (arg : Word) (s : State) : Host.Outcome State Fault Refusal :=
  result (scale256 (field s.layout .cycle arg)) s

/-- XRST: reset-state telemetry times 256 (42_extract.md R108). -/
def execXrst (arg : Word) (s : State) : Host.Outcome State Fault Refusal :=
  result (scale256 (field s.layout .reset arg)) s

/-- XTADDR: the token's device address (42_extract.md R109). -/
def execXtaddr (arg : Word) (s : State) : Host.Outcome State Fault Refusal :=
  result (subField (field s.layout .token arg) s.layout.tokAddrOff 0x7F#32) s

/-- XTEP: the token's endpoint (42_extract.md R110). -/
def execXtep (arg : Word) (s : State) : Host.Outcome State Fault Refusal :=
  result (subField (field s.layout .token arg) s.layout.tokEpOff 0xF#32) s

/-- XTCRC: the expected CRC-5 of a token record, over the low 11 bits of its token data (42_extract.md R111). -/
def execXtcrc (arg : Word) (s : State) : Host.Outcome State Fault Refusal :=
  resultCrc5 (payload (field s.layout .token arg)) s

/-- XLEN: the data length, without a range check (42_extract.md R112). -/
def execXlen (arg : Word) (s : State) : Host.Outcome State Fault Refusal :=
  result (field s.layout .length arg) s

/-- XFRAME: the SOF frame number (42_extract.md R113). -/
def execXframe (arg : Word) (s : State) : Host.Outcome State Fault Refusal :=
  result (field s.layout .frame arg) s

/-- XSCRC: the expected CRC-5 of an SOF record (42_extract.md R114). -/
def execXscrc (arg : Word) (s : State) : Host.Outcome State Fault Refusal :=
  resultCrc5 (payload (field s.layout .frame arg)) s

/-- XSHUB: the split token's hub address (42_extract.md R115). -/
def execXshub (arg : Word) (s : State) : Host.Outcome State Fault Refusal :=
  result (subField (field s.layout .split arg) s.layout.splHubOff 0x7F#32) s

/-- XSSC: the split-complete flag (42_extract.md R116). -/
def execXssc (arg : Word) (s : State) : Host.Outcome State Fault Refusal :=
  result (subField (field s.layout .split arg) s.layout.splScOff 0x1#32) s

end Sys2Proof.Machine
end

