-- ==== Sys2Proof/Machine/Dispatch.lean ====
section
/-! DEFINITION. The dispatch of a command to its meaning (30_encoding.md R64, R69). -/

namespace Sys2Proof.Machine

def exec (i : Instr) (s : State) : Host.Outcome State Fault Refusal :=
  match i with
  | .nop => Sys2Proof.Machine.execNop s
  -- CRC16U
  | .c16init => Sys2Proof.Machine.execC16init s
  | .c16byte arg => Sys2Proof.Machine.execC16byte arg s
  | .c16fin => Sys2Proof.Machine.execC16fin s
  -- CRC5U
  | .c5 arg => Sys2Proof.Machine.execC5 arg s
  -- EXTU
  | .extr o w arg => Sys2Proof.Machine.execExtr o w arg s
  | .xpid arg => Sys2Proof.Machine.execXpid arg s
  | .xcyc arg => Sys2Proof.Machine.execXcyc arg s
  | .xrst arg => Sys2Proof.Machine.execXrst arg s
  | .xtaddr arg => Sys2Proof.Machine.execXtaddr arg s
  | .xtep arg => Sys2Proof.Machine.execXtep arg s
  | .xtcrc arg => Sys2Proof.Machine.execXtcrc arg s
  | .xlen arg => Sys2Proof.Machine.execXlen arg s
  | .xframe arg => Sys2Proof.Machine.execXframe arg s
  | .xscrc arg => Sys2Proof.Machine.execXscrc arg s
  | .xshub arg => Sys2Proof.Machine.execXshub arg s
  | .xssc arg => Sys2Proof.Machine.execXssc arg s

end Sys2Proof.Machine
end

