-- ==== Sys2Proof/Machine/Run.lean ====
section
/-! DEFINITION. One atomic step (10_state.md R20, 30_encoding.md R61), and how the marks are recorded
(10_state.md R32). -/

namespace Sys2Proof.Machine

/-- The command in progress completes: decode the sampled word, perform the command's rule, BUSY <- 0
(30_encoding.md R61, R69, 10_state.md R24). An idle core has nothing to complete. -/
def complete (s : State) : Host.Outcome State Fault Refusal :=
  match s.inFlight with
  | none => .next s
  | some f =>
    match decode f.cmd f.arg with
    | .ok i => mapNext release (exec i s)
    | .error e => .refused (refusalOf e)

/-- The host has nothing to issue, or holds its command because cmd_ready = 0: a command in progress completes, an
idle core stays as it is (30_encoding.md R60, 60_exceptions.md R139). -/
def hostWaits (s : State) : Host.Outcome State Fault Refusal := complete s

/-- The host issues a command. The core takes it only when cmd_ready = 1 and then performs it in one atomic step;
otherwise the host holds it (30_encoding.md R60, R61). -/
def hostIssues (cmd : CmdWord) (arg : Word) (rest : List HostAction) (s : State) :
    Host.Outcome State Fault Refusal :=
  if s.cmdReady then complete (accept cmd arg { s with pending := rest }) else hostWaits s

/-- The host reads `rsp` and keeps what it read; the core does not change (20_memory.md R48, 60_exceptions.md R134). -/
def hostReads (rest : List HostAction) (s : State) : Host.Outcome State Fault Refusal :=
  match hostRead s with
  | .next v => .next { s with pending := rest, received := s.received ++ [v] }
  | .fault r => .fault r
  | .refused r => .refused r

/-- The host asserts `rst` (70_reset_and_hazards.md R150). -/
def hostResets (rest : List HostAction) (s : State) : Host.Outcome State Fault Refusal :=
  .next (resetCore { s with pending := rest })

/-- The host's next action on an unmarked core (60_exceptions.md R141). -/
def hostActs (s : State) : Host.Outcome State Fault Refusal :=
  match s.pending with
  | [] => hostWaits s
  | .issue cmd arg :: rest => hostIssues cmd arg rest s
  | .readRsp :: rest => hostReads rest s
  | .reset :: rest => hostResets rest s

/-- One step: a state with the REFUSED mark or a fault takes none, reset included (30_encoding.md R61,
60_exceptions.md R133, R134); otherwise the host's next action. -/
def takeStep (s : State) : Host.Outcome State Fault Refusal :=
  match s.refusedMark with
  | some r => .refused r
  | none =>
    match s.faultRecord with
    | some r => .fault r
    | none => hostActs s

/-- One step with its outcome recorded in the state: a refusal sets the REFUSED mark with its reason, a fault the
fault record (10_state.md R32, 60_exceptions.md R133, R134). -/
def advance (s : State) : State :=
  match takeStep s with
  | .next t => t
  | .fault r => { s with faultRecord := some r }
  | .refused r => { s with refusedMark := some r }

/-- `k` recorded steps. -/
def advanceN : Nat → State → State
  | 0, s => s
  | k + 1, s => advanceN k (advance s)

/-- A sequence of commands performed one after the other (20_memory.md R50), stopping at the first that does not
answer a next state. -/
def execAll : List Instr → State → Host.Outcome State Fault Refusal
  | [], s => .next s
  | i :: is, s =>
    match exec i s with
    | .next t => execAll is t
    | .fault r => .fault r
    | .refused r => .refused r

end Sys2Proof.Machine
end

