-- ==== Sys2Proof/Machine/Step.lean ====
section
/-! DEFINITION. The step the host calls, and the placing of a command as the host's next one. -/

namespace Sys2Proof.Machine

/-- One step of the machine (30_encoding.md R61). -/
def step (s : State) : Host.Outcome State Fault Refusal := takeStep s

/-- `s` with an opcode-table number as the command the very next step runs (log entry 10). -/
def State.withFetchWord (s : State) (nbits w : Nat) : State := placeCommand nbits w s

end Sys2Proof.Machine
end

