-- ==== Sys2Proof/Machine/Asm.lean ====
section
/-! DEFINITION. The assembler and the pseudo-instructions (30_encoding.md R70, R71). They are the host's tool and no
part of the machine (92_eei_decisions.md D27): a line of text becomes the commands the host issues.
The text of a line is a list of characters. What R70 leaves open of the text is DESIGN CHOICE, log entry 15. -/

namespace Sys2Proof.Machine

/-- A space, tab or carriage return. -/
def asmSpace (c : Char) : Bool := c == ' ' || c == '\t' || c == '\r'

/-- A line without the spaces at both ends. -/
def asmTrim (t : List Char) : List Char := ((t.dropWhile asmSpace).reverse.dropWhile asmSpace).reverse

/-- A line without its comment, which starts with `;` (R70). -/
def asmCode (t : List Char) : List Char := t.takeWhile (fun c => c != ';')

/-- The operands of a line, between commas. -/
def asmSplit : List Char → List (List Char)
  | [] => [[]]
  | c :: t =>
    match asmSplit t with
    | [] => [[c]]
    | w :: ws => if c == ',' then [] :: w :: ws else (c :: w) :: ws

/-- The value of a digit in base 16, capital or small. -/
def asmDigit (c : Char) : Option Nat :=
  if '0'.toNat ≤ c.toNat ∧ c.toNat ≤ '9'.toNat then some (c.toNat - '0'.toNat)
  else if 'a'.toNat ≤ c.toNat ∧ c.toNat ≤ 'f'.toNat then some (c.toNat - 'a'.toNat + 10)
  else if 'A'.toNat ≤ c.toNat ∧ c.toNat ≤ 'F'.toNat then some (c.toNat - 'A'.toNat + 10)
  else none

/-- Digits in a base, most significant first, after the value read so far. -/
def asmDigits (base : Nat) : Nat → List Char → Option Nat
  | acc, [] => some acc
  | acc, c :: t =>
    match asmDigit c with
    | some d => if d < base then asmDigits base (acc * base + d) t else none
    | none => none

/-- A number, decimal or `0x` hexadecimal (R70). -/
def asmNumber : List Char → Option Nat
  | [] => none
  | '0' :: 'x' :: [] => none
  | '0' :: 'x' :: t => asmDigits 16 0 t
  | t => asmDigits 10 0 t

/-- A number from 0 to `top`; out of range the assembler rejects it (R70). -/
def asmUpTo (top : Nat) (t : List Char) : Option Nat :=
  match asmNumber t with
  | some n => if n ≤ top then some n else none
  | none => none

/-- The operand `arg` of a command, from 0 to `top`, as the command `f` of it. -/
def asmArg (top : Nat) (f : Word → Instr) : List (List Char) → Option (List Instr)
  | [t] => (asmUpTo top t).map (fun n => [f (BitVec.ofNat 32 n)])
  | _ => none

/-- A command without operands. -/
def asmBare (i : Instr) : List (List Char) → Option (List Instr)
  | [] => some [i]
  | _ => none

/-- The largest 32-bit operand. -/
def asmTop : Nat := 2 ^ 32 - 1

/-- `extr O, W, arg` (R70). -/
def asmExtr : List (List Char) → Option (List Instr)
  | [o, w, v] =>
    match asmDigits 10 0 o, asmDigits 10 0 w, asmUpTo asmTop v with
    | some o', some w', some v' =>
      if o.isEmpty || w.isEmpty then none
      else if o' ≤ 31 ∧ 1 ≤ w' ∧ w' ≤ 32 then
        some [.extr (BitVec.ofNat 5 o') (BitVec.ofNat 6 w') (BitVec.ofNat 32 v')]
      else none
    | _, _, _ => none
  | _ => none

/-- The expansion of `crc16 b0, ..., bn-1` (R71). -/
def crc16Pseudo (bytes : List Byte) : List Instr :=
  .c16init :: (bytes.map (fun b => .c16byte (b.setWidth 32)) ++ [.c16fin])

/-- The bytes of a `crc16` line. -/
def asmBytes : List (List Char) → Option (List Byte)
  | [] => some []
  | t :: ts =>
    match asmUpTo 0xFF t, asmBytes ts with
    | some b, some bs => some (BitVec.ofNat 8 b :: bs)
    | _, _ => none

/-- The expansion of `c5tok a, e` for a <= 0x7F and e <= 0xF: `c5 (a | (e << 7))` (R71). -/
def c5tokPseudo (a : BitVec 7) (e : BitVec 4) : Instr := .c5 (a.setWidth 32 ||| (e.setWidth 32 <<< 7))

/-- A `c5tok` line. -/
def asmC5tok : List (List Char) → Option (List Instr)
  | [a, e] =>
    match asmUpTo 0x7F a, asmUpTo 0xF e with
    | some a', some e' => some [c5tokPseudo (BitVec.ofNat 7 a') (BitVec.ofNat 4 e')]
    | _, _ => none
  | _ => none

/-- How many bits of a mask are set (R71, popcount). -/
def popcount (m : Word) : Nat := (List.range 32).countP (fun k => m.getLsbD k)

/-- The expansion of `extrf f, arg`: accepted only when MASK_f is mask(popcount(MASK_f)), whose width is 1 to 32
(R71, 00_scope.md R13). -/
def extrfPseudo (l : Layout) (f : RecordField) (arg : Word) : Option Instr :=
  if popcount (l.mask f) ≠ 0 ∧ l.mask f = maskOf (popcount (l.mask f)) then
    some (.extr (l.off f) (BitVec.ofNat 6 (popcount (l.mask f))) arg)
  else none

/-- The LAYOUT fields by the names of 00_scope.md R9. -/
def asmField (t : List Char) : Option RecordField :=
  if t = ['P', 'I', 'D'] then some .pid
  else if t = ['C', 'Y', 'C', 'L', 'E'] then some .cycle
  else if t = ['R', 'E', 'S', 'E', 'T'] then some .reset
  else if t = ['T', 'O', 'K', 'E', 'N'] then some .token
  else if t = ['L', 'E', 'N', 'G', 'T', 'H'] then some .length
  else if t = ['F', 'R', 'A', 'M', 'E'] then some .frame
  else if t = ['S', 'P', 'L', 'I', 'T'] then some .split
  else none

/-- An `extrf` line under a LAYOUT. -/
def asmExtrf (l : Layout) : List (List Char) → Option (List Instr)
  | [f, v] =>
    match asmField f, asmUpTo asmTop v with
    | some f', some v' => (extrfPseudo l f' (BitVec.ofNat 32 v')).map (fun i => [i])
    | _, _ => none
  | _ => none

/-- A mnemonic with its operands (R70, R71). -/
def asmCommand (l : Layout) (m : List Char) (ops : List (List Char)) : Option (List Instr) :=
  if m = ['n', 'o', 'p'] then asmBare .nop ops
  else if m = ['c', '1', '6', 'i', 'n', 'i', 't'] then asmBare .c16init ops
  else if m = ['c', '1', '6', 'b', 'y', 't', 'e'] then asmArg 0xFF .c16byte ops
  else if m = ['c', '1', '6', 'f', 'i', 'n'] then asmBare .c16fin ops
  else if m = ['c', '5'] then asmArg 0x7FF .c5 ops
  else if m = ['e', 'x', 't', 'r'] then asmExtr ops
  else if m = ['x', 'p', 'i', 'd'] then asmArg asmTop .xpid ops
  else if m = ['x', 'c', 'y', 'c'] then asmArg asmTop .xcyc ops
  else if m = ['x', 'r', 's', 't'] then asmArg asmTop .xrst ops
  else if m = ['x', 't', 'a', 'd', 'd', 'r'] then asmArg asmTop .xtaddr ops
  else if m = ['x', 't', 'e', 'p'] then asmArg asmTop .xtep ops
  else if m = ['x', 't', 'c', 'r', 'c'] then asmArg asmTop .xtcrc ops
  else if m = ['x', 'l', 'e', 'n'] then asmArg asmTop .xlen ops
  else if m = ['x', 'f', 'r', 'a', 'm', 'e'] then asmArg asmTop .xframe ops
  else if m = ['x', 's', 'c', 'r', 'c'] then asmArg asmTop .xscrc ops
  else if m = ['x', 's', 'h', 'u', 'b'] then asmArg asmTop .xshub ops
  else if m = ['x', 's', 's', 'c'] then asmArg asmTop .xssc ops
  else if m = ['c', 'r', 'c', '1', '6'] then (asmBytes ops).map crc16Pseudo
  else if m = ['c', '5', 't', 'o', 'k'] then asmC5tok ops
  else if m = ['e', 'x', 't', 'r', 'f'] then asmExtrf l ops
  else none

/-- The operands after a mnemonic; none when the rest of the line is blank. -/
def asmOperands (rest : List Char) : List (List Char) :=
  if (asmTrim rest).isEmpty then [] else (asmSplit (asmTrim rest)).map asmTrim

/-- One line of text as the commands it assembles to under a LAYOUT; none when the assembler rejects it (R70, R71). -/
def assemble (l : Layout) (line : List Char) : Option (List Instr) :=
  if (asmTrim (asmCode line)).isEmpty then some []
  else
    asmCommand l ((asmTrim (asmCode line)).takeWhile (fun c => !asmSpace c))
      (asmOperands ((asmTrim (asmCode line)).dropWhile (fun c => !asmSpace c)))

/-- A hexadecimal digit, capital. -/
def hexDigit (n : Nat) : Char := if n < 10 then Char.ofNat ('0'.toNat + n) else Char.ofNat ('A'.toNat + (n - 10))

/-- `k` hexadecimal digits of a number. -/
def hexDigits : Nat → Nat → List Char
  | 0, _ => []
  | k + 1, n => hexDigits k (n / 16) ++ [hexDigit (n % 16)]

/-- The machine form `cmd:arg` of a command, 4 + 8 hexadecimal digits (R70). -/
def machineForm (i : Instr) : List Char :=
  hexDigits 4 (encodeCmd i).toNat ++ ':' :: hexDigits 8 (encodeArg i).toNat

end Sys2Proof.Machine
end

