-- ==== Sys2Proof/Machine/Port.lean ====
section
/-! DEFINITION. The command port clock by clock (30_encoding.md R60, 70_reset_and_hazards.md R150, R162): the same
state and the same operations as the atomic step, with the latency of each command left open. -/

namespace Sys2Proof.Machine

/-- The port inputs at a rising edge of `clk` (30_encoding.md R60). -/
structure PortIn where
  rst      : Bool
  cmdValid : Bool
  cmd      : CmdWord
  arg      : Word
  deriving DecidableEq, Repr

/-- The port outputs (30_encoding.md R60). -/
structure PortOut where
  cmdReady : Bool
  rsp      : Word
  rspValid : Bool
  deriving DecidableEq, Repr

/-- What the ports show: cmd_ready = ~BUSY, rsp = RSP, rsp_valid = RSP_VALID (30_encoding.md R60). -/
def portOut (s : State) : PortOut := { cmdReady := s.cmdReady, rsp := s.rsp, rspValid := s.rspValid }

/-- A cycle of a busy core without reset: the command completes when its last cycle ends, else one cycle fewer is left
(00_scope.md R10, 10_state.md R24). Every refusal has been answered at the accepting edge (log entry 20). -/
def flightEdge (f : Flight) (s : State) : Host.Outcome State Fault Refusal :=
  if f.left ≤ 1 then complete s else .next { s with inFlight := some { f with left := f.left - 1 } }

/-- The edge that accepts a command (30_encoding.md R60). DESIGN CHOICE (log entry 20): a command its atomic step refuses
is refused at this edge, before any cycle of BUSY = 1, so no later reset can undo the refusal (60_exceptions.md R133);
every other command is in progress after it. -/
def acceptEdge (cmd : CmdWord) (arg : Word) (s : State) : Host.Outcome State Fault Refusal :=
  mapNext (fun _ => accept cmd arg s) (complete (accept cmd arg s))

/-- A cycle of an idle core without reset: it accepts the command the host offers, if any (30_encoding.md R60). -/
def idleEdge (inp : PortIn) (s : State) : Host.Outcome State Fault Refusal :=
  if inp.cmdValid then acceptEdge inp.cmd inp.arg s else .next s

/-- A rising edge of `clk` on an unmarked core: reset first, and nothing is accepted at that edge
(70_reset_and_hazards.md R150); a busy core accepts nothing (30_encoding.md R60). -/
def liveEdge (inp : PortIn) (s : State) : Host.Outcome State Fault Refusal :=
  if inp.rst then .next (resetCore s)
  else
    match s.inFlight with
    | some f => flightEdge f s
    | none => idleEdge inp s

/-- A rising edge of `clk`; a marked core takes no further step (60_exceptions.md R133, R134). -/
def clockEdge (inp : PortIn) (s : State) : Host.Outcome State Fault Refusal :=
  match s.refusedMark with
  | some r => .refused r
  | none =>
    match s.faultRecord with
    | some r => .fault r
    | none => liveEdge inp s

/-- The edges at which the host gives the inputs in turn, stopping at the first that does not answer a next state. -/
def clockRun : List PortIn → State → Host.Outcome State Fault Refusal
  | [], s => .next s
  | inp :: rest, s =>
    match clockEdge inp s with
    | .next t => clockRun rest t
    | .fault r => .fault r
    | .refused r => .refused r

end Sys2Proof.Machine
end

