-- ==== Sys2Proof/Machine/Reference.lean ====
section
/-! DEFINITION. The spec's other forms of the same functions, which statements hold the machine against:
the ROM's generation (10_state.md R27), the bit-serial CRC-16 (40_crc16.md R85), the source's usb_crc16 (R80, R84), the
catalogued CRC-16/USB (R86), the reflected CRC-5 (41_crc5.md R96), the PID table (42_extract.md R118). The machine does
not use them. -/

namespace Sys2Proof.Machine

/-- `k` reflected CRC-16 steps with the polynomial 0xA001 (10_state.md R27, 40_crc16.md R85). -/
def crcBitSteps : Nat → Half → Half
  | 0, c => c
  | k + 1, c => crcBitSteps k (if c.getLsbD 0 then (c >>> 1) ^^^ 0xA001#16 else c >>> 1)

/-- The generated entry T[i] (10_state.md R27). -/
def generatedEntry (i : Byte) : Half := crcBitSteps 8 (i.setWidth 16)

/-- One byte without the table: eight bit steps (40_crc16.md R85). -/
def serialByte (acc : Half) (b : Byte) : Half := crcBitSteps 8 (acc ^^^ b.setWidth 16)

/-- The source's usb_crc16(buffer) as one loop over the bytes with the table (40_crc16.md R80). -/
def usbCrc16 (bytes : List Byte) : Half :=
  bytes.foldl
    (fun (acc : Half) (b : Byte) => (acc >>> 8) ^^^ crcTable (((acc ^^^ b.setWidth 16) &&& 0xFF#16).setWidth 8))
    0xFFFF#16 ^^^ 0xFFFF#16

/-- `k` unreflected CRC-16 steps with the polynomial 0x8005, most significant bit first (40_crc16.md R86). -/
def catalogueBitSteps : Nat → Half → Half
  | 0, c => c
  | k + 1, c => catalogueBitSteps k (if c.msb then (c <<< 1) ^^^ 0x8005#16 else c <<< 1)

/-- The catalogued CRC-16/USB: width 16, polynomial 0x8005, initial value 0xFFFF, input reflected, output reflected,
final XOR 0xFFFF (40_crc16.md R86). -/
def catalogueCrc16 (bytes : List Byte) : Half :=
  (bytes.foldl
    (fun (acc : Half) (b : Byte) => catalogueBitSteps 8 (acc ^^^ (b.reverse.setWidth 16 <<< 8)))
    0xFFFF#16).reverse ^^^ 0xFFFF#16

/-- `k` steps of the reflected CRC-5 register over the bits of `bits`, bit 0 first (41_crc5.md R96). -/
def reflectedSteps {n : Nat} (bits : BitVec n) : Nat → BitVec 5
  | 0 => 0x1F#5
  | k + 1 =>
    if (reflectedSteps bits k).getLsbD 0 ^^ bits.getLsbD k then (reflectedSteps bits k >>> 1) ^^^ 0x14#5
    else reflectedSteps bits k >>> 1

/-- The reflected bit-serial form of CRC5 (41_crc5.md R96). -/
def reflectedCrc5 (p : BitVec 11) : BitVec 5 := reflectedSteps p 11 ^^^ 0x1F#5

/-- The expanded PIDs of the 16 codes, code 0 first (42_extract.md R118). -/
def pidTable : List Byte :=
  [0xF0, 0xE1, 0xD2, 0xC3, 0xB4, 0xA5, 0x96, 0x87, 0x78, 0x69, 0x5A, 0x4B, 0x3C, 0x2D, 0x1E, 0x0F]

/-- The byte a command feeds to CRC16U, if it feeds one (40_crc16.md R82). -/
def byteFed : Instr → List Byte
  | .nop => []
  | .c16init => []
  | .c16byte arg => [arg.setWidth 8]
  | .c16fin => []
  | .c5 _ => []
  | .extr _ _ _ => []
  | .xpid _ => []
  | .xcyc _ => []
  | .xrst _ => []
  | .xtaddr _ => []
  | .xtep _ => []
  | .xtcrc _ => []
  | .xlen _ => []
  | .xframe _ => []
  | .xscrc _ => []
  | .xshub _ => []
  | .xssc _ => []

/-- The bytes a sequence of commands feeds to CRC16U, in issue order (20_memory.md R42). -/
def bytesFed (is : List Instr) : List Byte := is.flatMap byteFed

end Sys2Proof.Machine
end

