-- ==== Sys2Proof/Safety.lean ====
section
/-! DEFINITION. What counts as a safe state and a command the core accepts, in the terms statements use. -/

namespace Sys2Proof

/-- A command that meets no refusal: a legal encoding, and for C5 a payload of 11 bits (60_exceptions.md R133). -/
def Instr.accepted : Instr → Bool
  | .nop => true
  | .c16init => true
  | .c16byte _ => true
  | .c16fin => true
  | .c5 arg => Machine.narrowPayload arg
  | .extr _ w _ => legalWidth w
  | .xpid _ => true
  | .xcyc _ => true
  | .xrst _ => true
  | .xtaddr _ => true
  | .xtep _ => true
  | .xtcrc _ => true
  | .xlen _ => true
  | .xframe _ => true
  | .xscrc _ => true
  | .xshub _ => true
  | .xssc _ => true

/-- The commands that write RSP and RSP_VALID (10_state.md R23). -/
def Instr.producesResult : Instr → Bool
  | .nop => false
  | .c16init => false
  | .c16byte _ => false
  | .c16fin => true
  | .c5 _ => true
  | .extr _ _ _ => true
  | .xpid _ => true
  | .xcyc _ => true
  | .xrst _ => true
  | .xtaddr _ => true
  | .xtep _ => true
  | .xtcrc _ => true
  | .xlen _ => true
  | .xframe _ => true
  | .xscrc _ => true
  | .xshub _ => true
  | .xssc _ => true

/-- The commands of CRC16U (40_crc16.md R80). -/
def Instr.isCrc16 : Instr → Bool
  | .nop => false
  | .c16init => true
  | .c16byte _ => true
  | .c16fin => true
  | .c5 _ => false
  | .extr _ _ _ => false
  | .xpid _ => false
  | .xcyc _ => false
  | .xrst _ => false
  | .xtaddr _ => false
  | .xtep _ => false
  | .xtcrc _ => false
  | .xlen _ => false
  | .xframe _ => false
  | .xscrc _ => false
  | .xshub _ => false
  | .xssc _ => false

/-- The commands that start or end a CRC-16 stream (70_reset_and_hazards.md R161). -/
def Instr.startsOrEndsStream : Instr → Bool
  | .nop => false
  | .c16init => true
  | .c16byte _ => false
  | .c16fin => true
  | .c5 _ => false
  | .extr _ _ _ => false
  | .xpid _ => false
  | .xcyc _ => false
  | .xrst _ => false
  | .xtaddr _ => false
  | .xtep _ => false
  | .xtcrc _ => false
  | .xlen _ => false
  | .xframe _ => false
  | .xscrc _ => false
  | .xshub _ => false
  | .xssc _ => false

/-- The commands that run the CRC-5 engine (10_state.md R25). -/
def Instr.runsCrc5 : Instr → Bool
  | .nop => false
  | .c16init => false
  | .c16byte _ => false
  | .c16fin => false
  | .c5 _ => true
  | .extr _ _ _ => false
  | .xpid _ => false
  | .xcyc _ => false
  | .xrst _ => false
  | .xtaddr _ => false
  | .xtep _ => false
  | .xtcrc _ => true
  | .xlen _ => false
  | .xframe _ => false
  | .xscrc _ => true
  | .xshub _ => false
  | .xssc _ => false

/-- The pair (OFF_f, MASK_f) of a table supplied at build time (00_scope.md R9). -/
def RawLayout.spec (r : RawLayout) : RecordField → FieldSpec
  | .pid => r.pid
  | .cycle => r.cycle
  | .reset => r.reset
  | .token => r.token
  | .length => r.length
  | .frame => r.frame
  | .split => r.split

/-- The legal values of a LAYOUT in the words of 42_extract.md R101. -/
abbrev RawLayout.MeetsR101 (r : RawLayout) : Prop :=
  (r.pid.off ≤ 31 ∧ r.cycle.off ≤ 31 ∧ r.reset.off ≤ 31 ∧ r.token.off ≤ 31 ∧ r.length.off ≤ 31 ∧ r.frame.off ≤ 31
    ∧ r.split.off ≤ 31)
  ∧ r.pid.mask = 0xF#32 ∧ r.frame.mask = 0x7FF#32
  ∧ (r.tokAddrOff ≤ 31 ∧ r.tokEpOff ≤ 31 ∧ r.splHubOff ≤ 31 ∧ r.splScOff ≤ 31)

namespace Machine

/-- Between two steps of the timeless model BUSY = 0 (10_state.md R24), and a state reached by a step carries no mark
(30_encoding.md R61). -/
abbrev State.Ready (s : State) : Prop := s.cmdReady = true ∧ s.unmarked = true

/-- A good state: no refusal and no fault (60_exceptions.md R133, R134). -/
abbrev State.Good (s : State) : Prop := s.refusedMark = none ∧ s.faultRecord = none

/-- How many of the host's pending actions issue a command. -/
def issuesIn : List HostAction → Nat
  | [] => 0
  | .issue _ _ :: as => issuesIn as + 1
  | .readRsp :: as => issuesIn as
  | .reset :: as => issuesIn as

/-- The machine's invariant between two steps, for a LAYOUT and a program of `n` commands: BUSY = 0 and no mark (`Ready`),
LAYOUT as built (00_scope.md R9), and every command of the program either issued or still pending, the position being
the number of those issued (10_state.md R29). -/
abbrev State.Inv (l : Layout) (n : Nat) (s : State) : Prop :=
  s.Ready ∧ s.layout = l ∧ s.position + issuesIn s.pending = n

/-- The invariant between two clock edges, for a LAYOUT: no mark, LAYOUT as built (00_scope.md R9), and a command in
progress is one the core performs, since a refused one never gets in progress (60_exceptions.md R133, log entry 20). -/
abbrev State.ClockInv (l : Layout) (s : State) : Prop :=
  s.unmarked = true ∧ s.layout = l
    ∧ ∀ f, s.inFlight = some f → ∃ i, decode f.cmd f.arg = .ok i ∧ i.accepted = true

/-- The input with which the host offers nothing and does not reset (30_encoding.md R60). -/
def quietInput : PortIn := { rst := false, cmdValid := false, cmd := 0#16, arg := 0#32 }

/-- The input with which the host offers a command (30_encoding.md R60). -/
def offerInput (cmd : CmdWord) (arg : Word) : PortIn := { rst := false, cmdValid := true, cmd := cmd, arg := arg }

/-- The record with the 7-bit device address `a` at bit `p` and the 4-bit endpoint `e` at bit `q`, its other bits
those of `junk` (42_extract.md R119). -/
def packToken (junk : Word) (p q : Nat) (a : BitVec 7) (e : BitVec 4) : Word :=
  (junk &&& ~~~((0x7F#32 <<< p) ||| (0xF#32 <<< q))) ||| (a.setWidth 32 <<< p) ||| (e.setWidth 32 <<< q)

end Machine

end Sys2Proof
end

