-- ==== Sys2Proof/Certificates/Slice0/Obligations.lean ====
section
/-! DEFINITION. The statements for the provers, from the numbered rules of spec/. -/

open Sys2Proof Sys2Proof.Machine

/-! ## Reset -/

/-- The values the spec gives for reset: ACC16 = 0xFFFF (R22), RSP_VALID = 0 (R23), BUSY = 0 (R24), no mark (R32).
Nothing is said of RSP and C5_*, which have no value there by the spec. -/
def Obligations.ResetLeavesTheStatedValues : Prop :=
  State.reset.acc16 = 0xFFFF#16 ∧ State.reset.rspValid = false ∧ State.reset.cmdReady = true
    ∧ State.reset.refusedMark = none ∧ State.reset.faultRecord = none

/-- The reset event (R150): on an unmarked state, as a host action and as a clock edge, ACC16, RSP_VALID and BUSY take
their values, LAYOUT stays, no command is accepted at the edge; what was in progress does not matter; a mark stays. That
the host's other actions, the position and the values read stay is the model's choice (log entries 8, 9 and 18). -/
def Obligations.ResetEventTakesTheResetState : Prop :=
  (∀ (s : State) (rest : List HostAction), s.unmarked = true → s.pending = .reset :: rest →
    ∃ t, step s = .next t ∧ t.acc16 = 0xFFFF#16 ∧ t.rspValid = false ∧ t.cmdReady = true ∧ t.layout = s.layout
      ∧ t.pending = rest ∧ t.position = s.position ∧ t.received = s.received)
  ∧ (∀ (s : State) (inp : PortIn), s.unmarked = true → inp.rst = true →
    ∃ t, clockEdge inp s = .next t ∧ t.acc16 = 0xFFFF#16 ∧ t.rspValid = false ∧ t.cmdReady = true
      ∧ t.layout = s.layout ∧ t.position = s.position)
  ∧ (∀ (s : State) (f : Option Flight), resetCore { s with inFlight := f } = resetCore s)
  ∧ (∀ s : State, (resetCore s).refusedMark = s.refusedMark ∧ (resetCore s).faultRecord = s.faultRecord)

/-! ## The commands, one by one: the word and the effect -/

/-- NOP (R73): the word 0x0000, whatever arg, and no state changes. -/
def Obligations.NopChangesNothing : Prop :=
  (∀ arg, decode 0x0000#16 arg = .ok .nop) ∧ ∀ s, exec .nop s = .next s

/-- C16INIT (R81): the word 0x0800, ACC16 <- 0xFFFF, nothing else changes, and twice is once. -/
def Obligations.C16InitSeedsTheAccumulator : Prop :=
  (∀ arg, decode 0x0800#16 arg = .ok .c16init)
  ∧ (∀ s : State, exec .c16init s = .next { s with acc16 := 0xFFFF#16 })
  ∧ ∀ s, execAll [.c16init, .c16init] s = exec .c16init s

/-- C16BYTE (R82): the word 0x1000; one table step on arg[7:0]; nothing else changes; the high byte of ACC16 is that of
the entry. -/
def Obligations.C16ByteLooksUpOneEntry : Prop :=
  (∀ arg, decode 0x1000#16 arg = .ok (.c16byte arg))
  ∧ ∀ (arg : Word) (s : State),
      let idx : Byte := (s.acc16 ^^^ (arg.setWidth 8).setWidth 16).setWidth 8
      exec (.c16byte arg) s = .next { s with acc16 := (s.acc16 >>> 8) ^^^ crcTable idx }
        ∧ ((s.acc16 >>> 8) ^^^ crcTable idx).extractLsb' 8 8 = (crcTable idx).extractLsb' 8 8

/-- C16FIN (R83): the word 0x1800; RSP <- zext_32(ACC16 ^ 0xFFFF), RSP_VALID <- 1, ACC16 not written; 0 right after
C16INIT; a second one returns the same again. -/
def Obligations.C16FinDeliversTheComplement : Prop :=
  (∀ arg, decode 0x1800#16 arg = .ok .c16fin)
  ∧ (∀ s : State, exec .c16fin s = .next { s with rsp := (s.acc16 ^^^ 0xFFFF#16).setWidth 32, rspValid := true })
  ∧ (∀ s : State, execAll [.c16init, .c16fin] s
      = .next { s with acc16 := 0xFFFF#16, rsp := 0#32, rspValid := true })
  ∧ ∀ s, execAll [.c16fin, .c16fin] s = exec .c16fin s

/-- C5 (R95): the word 0x2000; for arg[31:11] = 0 RSP is CRC5(arg[10:0]), at most 31, and beside RSP_VALID only C5_*
(with the model's draw counter, log entry 5) may change; a wider payload is refused. -/
def Obligations.C5DeliversCrc5OrRefuses : Prop :=
  (∀ arg, decode 0x2000#16 arg = .ok (.c5 arg))
  ∧ (∀ (arg : Word) (s : State), arg.toNat ≤ 0x7FF →
      (∃ (r : C5Regs) (n : Nat), exec (.c5 arg) s
        = .next { s with rsp := (crc5 (arg.setWidth 11)).setWidth 32, rspValid := true, c5 := r, draws := n })
      ∧ ((crc5 (arg.setWidth 11)).setWidth 32 : Word).toNat ≤ 31)
  ∧ ∀ (arg : Word) (s : State), 0x7FF < arg.toNat → exec (.c5 arg) s = .refused .widePayload

/-- EXTR (R104): the word 0x2800 | (W << 5) | O; for W = 1..32 RSP is (arg >> O) & (2^W - 1), RSP_VALID is 1 and nothing
else changes; any other width is refused. -/
def Obligations.ExtrExtractsTheField : Prop :=
  (∀ (o : BitVec 5) (w : BitVec 6) (arg : Word) (s : State), 1 ≤ w.toNat → w.toNat ≤ 32 →
    decode (0x2800#16 ||| (w.setWidth 16 <<< 5) ||| o.setWidth 16) arg = .ok (.extr o w arg)
    ∧ exec (.extr o w arg) s
      = .next { s with rsp := (arg >>> o.toNat) &&& BitVec.ofNat 32 (2 ^ w.toNat - 1), rspValid := true })
  ∧ ∀ (o : BitVec 5) (w : BitVec 6) (arg : Word) (s : State), (w.toNat = 0 ∨ 32 < w.toNat) →
    exec (.extr o w arg) s = .refused .extractWidth

/-- XPID (R106): the word 0x4000; the 4-bit code c in the low nibble, its complement in the high one. -/
def Obligations.XpidExpandsTheCode : Prop :=
  (∀ arg, decode 0x4000#16 arg = .ok (.xpid arg))
  ∧ ∀ (arg : Word) (s : State),
      let c : BitVec 4 := ((arg >>> s.layout.offPid.toNat) &&& 0xF#32).setWidth 4
      exec (.xpid arg) s = .next { s with rsp := (~~~c ++ c).setWidth 32, rspValid := true }

/-- XCYC (R107): the word 0x4800; the cycle field shifted left by 8, truncated to 32 bits. -/
def Obligations.XcycScalesTheCycleField : Prop :=
  (∀ arg, decode 0x4800#16 arg = .ok (.xcyc arg))
  ∧ ∀ (arg : Word) (s : State), exec (.xcyc arg) s
      = .next { s with rsp := ((arg >>> s.layout.offCycle.toNat) &&& s.layout.maskCycle) <<< 8, rspValid := true }

/-- XRST (R108): the word 0x5000; the reset field shifted left by 8, truncated to 32 bits. -/
def Obligations.XrstScalesTheResetField : Prop :=
  (∀ arg, decode 0x5000#16 arg = .ok (.xrst arg))
  ∧ ∀ (arg : Word) (s : State), exec (.xrst arg) s
      = .next { s with rsp := ((arg >>> s.layout.offReset.toNat) &&& s.layout.maskReset) <<< 8, rspValid := true }

/-- XTADDR (R109): the word 0x5800; seven bits of the token data from TOK_ADDR_OFF on. -/
def Obligations.XtaddrDeliversTheDeviceAddress : Prop :=
  (∀ arg, decode 0x5800#16 arg = .ok (.xtaddr arg))
  ∧ ∀ (arg : Word) (s : State), exec (.xtaddr arg) s
      = .next { s with
          rsp := (((arg >>> s.layout.offToken.toNat) &&& s.layout.maskToken) >>> s.layout.tokAddrOff.toNat) &&& 0x7F#32
          rspValid := true }

/-- XTEP (R110): the word 0x6000; four bits of the token data from TOK_EP_OFF on. -/
def Obligations.XtepDeliversTheEndpoint : Prop :=
  (∀ arg, decode 0x6000#16 arg = .ok (.xtep arg))
  ∧ ∀ (arg : Word) (s : State), exec (.xtep arg) s
      = .next { s with
          rsp := (((arg >>> s.layout.offToken.toNat) &&& s.layout.maskToken) >>> s.layout.tokEpOff.toNat) &&& 0xF#32
          rspValid := true }

/-- XTCRC (R111): the word 0x6800; the CRC-5 of the low 11 bits of the token data, never refused; beside RSP and
RSP_VALID only C5_* (with the model's draw counter, log entry 5) may change. -/
def Obligations.XtcrcDeliversTheExpectedTokenCrc : Prop :=
  (∀ arg, decode 0x6800#16 arg = .ok (.xtcrc arg))
  ∧ ∀ (arg : Word) (s : State), ∃ (r : C5Regs) (n : Nat), exec (.xtcrc arg) s
      = .next { s with
          rsp := (crc5 (((arg >>> s.layout.offToken.toNat) &&& s.layout.maskToken).setWidth 11)).setWidth 32
          rspValid := true, c5 := r, draws := n }

/-- XLEN (R112): the word 0x7000; the length field, without a range check. -/
def Obligations.XlenDeliversTheLength : Prop :=
  (∀ arg, decode 0x7000#16 arg = .ok (.xlen arg))
  ∧ ∀ (arg : Word) (s : State), exec (.xlen arg) s
      = .next { s with rsp := (arg >>> s.layout.offLength.toNat) &&& s.layout.maskLength, rspValid := true }

/-- XFRAME (R113): the word 0x7800; the 11-bit frame number, 0..2047. -/
def Obligations.XframeDeliversTheFrameNumber : Prop :=
  (∀ arg, decode 0x7800#16 arg = .ok (.xframe arg))
  ∧ ∀ (arg : Word) (s : State),
      exec (.xframe arg) s
        = .next { s with rsp := (arg >>> s.layout.offFrame.toNat) &&& 0x7FF#32, rspValid := true }
      ∧ ((arg >>> s.layout.offFrame.toNat) &&& 0x7FF#32).toNat ≤ 2047

/-- XSCRC (R114): the word 0x8000; the CRC-5 of the whole frame field, never refused; beside RSP and RSP_VALID only
C5_* (with the model's draw counter, log entry 5) may change. -/
def Obligations.XscrcDeliversTheExpectedFrameCrc : Prop :=
  (∀ arg, decode 0x8000#16 arg = .ok (.xscrc arg))
  ∧ ∀ (arg : Word) (s : State), ∃ (r : C5Regs) (n : Nat), exec (.xscrc arg) s
      = .next { s with
          rsp := (crc5 ((arg >>> s.layout.offFrame.toNat).setWidth 11)).setWidth 32
          rspValid := true, c5 := r, draws := n }

/-- XSHUB (R115): the word 0x8800; seven bits of the split data from SPL_HUB_OFF on. -/
def Obligations.XshubDeliversTheHubAddress : Prop :=
  (∀ arg, decode 0x8800#16 arg = .ok (.xshub arg))
  ∧ ∀ (arg : Word) (s : State), exec (.xshub arg) s
      = .next { s with
          rsp := (((arg >>> s.layout.offSplit.toNat) &&& s.layout.maskSplit) >>> s.layout.splHubOff.toNat) &&& 0x7F#32
          rspValid := true }

/-- XSSC (R116): the word 0x9000; the bit of the split data at SPL_SC_OFF, as 0 or 1. -/
def Obligations.XsscDeliversTheSplitCompleteFlag : Prop :=
  (∀ arg, decode 0x9000#16 arg = .ok (.xssc arg))
  ∧ ∀ (arg : Word) (s : State), exec (.xssc arg) s
      = .next { s with
          rsp := (((arg >>> s.layout.offSplit.toNat) &&& s.layout.maskSplit) >>> s.layout.splScOff.toNat) &&& 0x1#32
          rspValid := true }

/-! ## The extractor's datapath and laws -/

/-- The mux tree (R102): five stages of 2-to-1 multiplexers, shifting by 1, 2, 4, 8 and 16 as o[0]..o[4] select, and
together a 32-bit logical right shift by 0..31. -/
def Obligations.MuxTreeIsALogicalRightShift : Prop :=
  ∀ (v : Word) (o : BitVec 5),
    (let s1 := if o.getLsbD 0 then v >>> 1 else v
     let s2 := if o.getLsbD 1 then s1 >>> 2 else s1
     let s3 := if o.getLsbD 2 then s2 >>> 4 else s2
     let s4 := if o.getLsbD 3 then s3 >>> 8 else s3
     let s5 := if o.getLsbD 4 then s4 >>> 16 else s4
     shr v o = s5)
    ∧ shr v o = v >>> o.toNat

/-- FIELD(r, f) = (r >> OFF_f) & MASK_f, and it depends only on the record's bits inside the field (R103). -/
def Obligations.FieldTakesOnlyBitsOfTheField : Prop :=
  (∀ (l : Layout) (f : RecordField) (r : Word), field l f r = (r >>> (l.off f).toNat) &&& l.mask f)
  ∧ ∀ (l : Layout) (f : RecordField) (r r' : Word),
      (∀ k, (l.mask f).getLsbD k = true →
        r.getLsbD ((l.off f).toNat + k) = r'.getLsbD ((l.off f).toNat + k)) →
      field l f r = field l f r'

/-- The 16 expanded PIDs (R118): XPID of a record with code c gives the table's byte; its lower nibble is c and its
upper nibble the complement. -/
def Obligations.XpidFollowsThePidTable : Prop :=
  ∀ (arg : Word) (s : State) (c : Nat), c = ((arg >>> s.layout.offPid.toNat) &&& 0xF#32).toNat →
    ∃ t, exec (.xpid arg) s = .next t ∧ t.rsp = (pidTable.getD c 0#8).setWidth 32
      ∧ t.rsp.toNat % 16 = c ∧ t.rsp.toNat / 16 = 15 - c

/-- The token round trip (R119): whatever the record's other bits, an address and an endpoint packed at their positions
come back, when the positions lie in the record, do not overlap, and MASK_TOKEN keeps the eleven bits. -/
def Obligations.TokenFieldsRoundTrip : Prop :=
  ∀ (s : State) (junk : Word) (a : BitVec 7) (e : BitVec 4) (p q : Nat),
    p = s.layout.offToken.toNat + s.layout.tokAddrOff.toNat → q = s.layout.offToken.toNat + s.layout.tokEpOff.toNat →
    p + 7 ≤ 32 → q + 4 ≤ 32 → (p + 7 ≤ q ∨ q + 4 ≤ p) →
    (∀ k, k < 7 → s.layout.maskToken.getLsbD (s.layout.tokAddrOff.toNat + k) = true) →
    (∀ k, k < 4 → s.layout.maskToken.getLsbD (s.layout.tokEpOff.toNat + k) = true) →
    exec (.xtaddr (packToken junk p q a e)) s = .next { s with rsp := a.setWidth 32, rspValid := true }
    ∧ exec (.xtep (packToken junk p q a e)) s = .next { s with rsp := e.setWidth 32, rspValid := true }

/-- Purity (R51): a command that is not a CRC-16 command gives the same result, or the same refusal, in any two states
of one LAYOUT; and two such commands leave the same state in either order but for RSP. The second clause's equality
covers the model's own draw counter and free values too (log entry 5). -/
def Obligations.ExtractionsArePure : Prop :=
  (∀ (i : Instr) (s s' : State), i.isCrc16 = false → s.layout = s'.layout →
    (∃ t t', exec i s = .next t ∧ exec i s' = .next t' ∧ (i.producesResult = true → t.rsp = t'.rsp))
    ∨ ∃ r, exec i s = .refused r ∧ exec i s' = .refused r)
  ∧ ∀ (i j : Instr) (s t : State), i.isCrc16 = false → j.isCrc16 = false → execAll [i, j] s = .next t →
      ∃ u, execAll [j, i] s = .next u ∧ { u with rsp := t.rsp } = t

/-! ## CRC-16 -/

/-- Every ROM entry is the generated one (R27), with the values and the linearity the rule lists, and so the byte step of
R82 is linear in accumulator and byte together. -/
def Obligations.RomIsTheGeneratedTable : Prop :=
  (∀ i : Byte, crcTable i = generatedEntry i)
  ∧ crcTable 0x00#8 = 0x0000#16 ∧ crcTable 0x80#8 = 0xA001#16 ∧ crcTable 0xFF#8 = 0x4040#16
  ∧ (∀ a b : Byte, crcTable (a ^^^ b) = crcTable a ^^^ crcTable b)
  ∧ ∀ (a b : Half) (c d : Byte), crcByte (a ^^^ b) (c ^^^ d) = crcByte a c ^^^ crcByte b d

/-- One C16BYTE is eight reflected bit steps, for every accumulator and byte (R85). -/
def Obligations.ByteStepIsEightBitSteps : Prop :=
  ∀ (arg : Word) (s : State),
    exec (.c16byte arg) s = .next { s with acc16 := serialByte s.acc16 (arg.setWidth 8) }

/-- The stream law (R84): C16INIT, then any accepted commands with no C16INIT or C16FIN among them, then C16FIN, sets RSP
to the source's usb_crc16 of the bytes fed, whatever else is interleaved; and the closed form for one byte. -/
def Obligations.StreamComputesUsbCrc16 : Prop :=
  (∀ (body : List Instr) (s : State),
    (∀ i ∈ body, i.accepted = true ∧ i.startsOrEndsStream = false) →
    ∃ t, execAll (.c16init :: (body ++ [.c16fin])) s = .next t
      ∧ t.rsp = (usbCrc16 (bytesFed body)).setWidth 32 ∧ t.rspValid = true)
  ∧ ∀ b : Byte, usbCrc16 [b] = crcTable (b ^^^ 0xFF#8) ^^^ 0xFF00#16

/-- CRC16U computes the catalogued CRC-16/USB of every byte string, here in its unreflected form with the polynomial
0x8005, and its check value is 0xB4C8 (R86). -/
def Obligations.StreamIsTheCatalogueCrc16 : Prop :=
  (∀ (bytes : List Byte) (s : State), ∃ a : Half, execAll (crc16Pseudo bytes) s
    = .next { s with acc16 := a, rsp := (catalogueCrc16 bytes).setWidth 32, rspValid := true })
  ∧ ∀ s : State, ∃ a : Half,
      execAll (crc16Pseudo [0x31#8, 0x32#8, 0x33#8, 0x34#8, 0x35#8, 0x36#8, 0x37#8, 0x38#8, 0x39#8]) s
        = .next { s with acc16 := a, rsp := 0xB4C8#32, rspValid := true }

/-- The residue (R43): a message followed by the low and then the high byte of its own CRC leaves ACC16 = 0xB001, and
C16FIN returns 0x4FFE, whatever the message. -/
def Obligations.OwnCrcLeavesTheResidue : Prop :=
  ∀ (bytes : List Byte) (s : State), ∃ t, execAll (crc16Pseudo bytes) s = .next t
    ∧ execAll [.c16byte (t.rsp &&& 0xFF#32), .c16byte (t.rsp >>> 8), .c16fin] t
      = .next { t with acc16 := 0xB001#16, rsp := 0x4FFE#32, rspValid := true }

/-- ACC16 has its four rules (R22): reset and C16INIT write 0xFFFF; C16BYTE updates it by a table step on its own value;
C16FIN reads it for RSP and does not write it; no other command reads or writes it. -/
def Obligations.OnlyCrc16CommandsTouchTheAccumulator : Prop :=
  State.reset.acc16 = 0xFFFF#16
  ∧ (∀ s : State, exec .c16init s = .next { s with acc16 := 0xFFFF#16 })
  ∧ (∀ (arg : Word) (s : State),
      exec (.c16byte arg) s = .next { s with acc16 := crcByte s.acc16 (arg.setWidth 8) })
  ∧ (∀ s : State, exec .c16fin s = .next { s with rsp := (s.acc16 ^^^ 0xFFFF#16).setWidth 32, rspValid := true })
  ∧ ∀ (i : Instr) (s : State) (a : Half), i.isCrc16 = false →
      exec i { s with acc16 := a } = mapNext (fun t => { t with acc16 := a }) (exec i s)
      ∧ ∀ t, exec i s = .next t → t.acc16 = s.acc16

/-! ## CRC-5 -/

/-- Mirroring (R91): the data word is the 16-bit mirror of the zero-extended payload; payload bit i is its bit 15 - i, and
its low five bits are 0. -/
def Obligations.MirrorReversesThePayload : Prop :=
  ∀ p : BitVec 11, mirrorPayload p = (p.setWidth 16).reverse
    ∧ (∀ i, i ≤ 10 → (mirrorPayload p).getLsbD (15 - i) = p.getLsbD i)
    ∧ ∀ k, k < 5 → (mirrorPayload p).getLsbD k = false

/-- During the iterations the low eleven bits of C5_C stay 0 and C5_N counts them, up to 11 (R92). -/
def Obligations.LfsrKeepsLowBitsZero : Prop :=
  ∀ (p : BitVec 11) (k : Nat), k ≤ 11 →
    (∀ j, j < 11 → (c5Iterations k (c5Load p)).c.getLsbD j = false) ∧ (c5Iterations k (c5Load p)).n.toNat = k

/-- CRC5 is the reflected bit-serial CRC-5/USB on all 2048 payloads, whose check value is 0x19 (R96). -/
def Obligations.Crc5IsTheReflectedForm : Prop :=
  (∀ p : BitVec 11, crc5 p = reflectedCrc5 p)
  ∧ reflectedSteps 0x393837363534333231#72 72 ^^^ 0x1F#5 = 0x19#5

/-- The CRC-5 residual (R44): the reflected register over the payload followed by its own CRC-5 ends at 0x06. -/
def Obligations.OwnCrc5LeavesTheResidual : Prop :=
  ∀ p : BitVec 11, reflectedSteps (crc5 p ++ p) 16 = 0x06#5

/-- The source's example payload, address 0x3A and endpoint 0x3, has the CRC-5 0x05 and not 0x0A (R97). -/
def Obligations.SourceExampleHasCrc5Five : Prop :=
  (0x3A#32 ||| (0x3#32 <<< 7)) = 0x1BA#32
  ∧ ∀ s : State, ∃ t, exec (.c5 0x1BA#32) s = .next t ∧ t.rsp = 0x05#32 ∧ t.rsp ≠ 0x0A#32

/-! ## Results, frames, refusals -/

/-- The result register (R23): the result-producing commands end with RSP_VALID = 1; NOP, C16INIT and C16BYTE leave RSP and
RSP_VALID; at reset RSP_VALID is 0. -/
def Obligations.OnlyResultCommandsWriteRsp : Prop :=
  (∀ (i : Instr) (s t : State), i.producesResult = true → exec i s = .next t → t.rspValid = true)
  ∧ (∀ (i : Instr) (s t : State), i.producesResult = false → exec i s = .next t →
      t.rsp = s.rsp ∧ t.rspValid = s.rspValid)
  ∧ State.reset.rspValid = false

/-- Nothing clears RSP_VALID except reset (R23): over one step of any state, and over one clock edge. -/
def Obligations.OnlyResetClearsRspValid : Prop :=
  (∀ s t : State, step s = .next t → s.rspValid = true → (∀ rest, s.pending ≠ .reset :: rest) → t.rspValid = true)
  ∧ ∀ (inp : PortIn) (s t : State), clockEdge inp s = .next t → s.rspValid = true → inp.rst = false →
      t.rspValid = true

/-- RSP holds only the most recent result (R160): after any commands, a result-producing one and then any that produce
none, RSP is what the result-producing one left. -/
def Obligations.LatestResultStands : Prop :=
  ∀ (before after : List Instr) (i : Instr) (s t u : State), execAll before s = .next t → exec i t = .next u →
    i.producesResult = true → (∀ j ∈ after, j.producesResult = false) →
    ∃ v, execAll (before ++ i :: after) s = .next v ∧ v.rsp = u.rsp ∧ v.rspValid = true

/-- The frame of every command: no command changes a command in progress, LAYOUT (R9), a mark (R32), the host's pending
actions, the program position (R72) or what the host has read (log entries 8 and 9); only C5, XTCRC and XSCRC change
C5_* (R25) and the draw counter (log entry 5). -/
def Obligations.CommandsLeaveTheRestAlone : Prop :=
  ∀ (i : Instr) (s t : State), exec i s = .next t →
    t.inFlight = s.inFlight ∧ t.layout = s.layout ∧ t.refusedMark = s.refusedMark ∧ t.faultRecord = s.faultRecord
    ∧ t.pending = s.pending ∧ t.position = s.position ∧ t.received = s.received
    ∧ (i.runsCrc5 = false → t.c5 = s.c5 ∧ t.draws = s.draws)

/-- No command raises an exception (R130): in every state a command is performed to its end, or is refused, which happens
exactly for an illegal EXTR width and a C5 payload of more than 11 bits; no command faults. -/
def Obligations.CommandsNeverFault : Prop :=
  (∀ (i : Instr) (s : State), i.accepted = true → ∃ t, exec i s = .next t)
  ∧ (∀ (i : Instr) (s : State), i.accepted = false → exec i s = .refused .extractWidth ∨ exec i s = .refused .widePayload)
  ∧ ∀ (i : Instr) (s : State) (r : Fault), exec i s ≠ .fault r

/-! ## Decoding -/

/-- Words written out from the encodings of R62 and R64, one or more of each unit, read as the commands they stand for. -/
def Obligations.DecodeReadsTheWordsOfTheMap : Prop :=
  decode 0b0000000000000000#16 7#32 = .ok .nop
  ∧ decode 0b0001000000000000#16 0x1FF#32 = .ok (.c16byte 0x1FF#32)
  ∧ decode 0b0010000000000000#16 0x1BA#32 = .ok (.c5 0x1BA#32)
  ∧ decode 0b0010110000011111#16 5#32 = .ok (.extr 31#5 32#6 5#32)
  ∧ decode 0b0010100000100000#16 5#32 = .ok (.extr 0#5 1#6 5#32)
  ∧ decode 0b0100000000000000#16 5#32 = .ok (.xpid 5#32)
  ∧ decode 0b1001000000000000#16 5#32 = .ok (.xssc 5#32)

/-- Every well-formed command is read back from its word and operand, with every field at every value. -/
def Obligations.DecodeInvertsEncode : Prop :=
  ∀ i : Instr, i.wellFormed = true → decode (encodeCmd i) (encodeArg i) = .ok i

/-- A word the decoder accepts is the word of a well-formed command, and the operand is the one issued with it unless the
command ignores it (R69, R63). -/
def Obligations.AcceptedWordsAreEncodings : Prop :=
  ∀ (cmd : CmdWord) (arg : Word) (i : Instr), decode cmd arg = .ok i →
    i.wellFormed = true ∧ encodeCmd i = cmd ∧ (encodeArg i = arg ∨ i = .nop ∨ i = .c16init ∨ i = .c16fin)

/-- A reserved opcode is refused whatever the other bits and the operand hold (R65). -/
def Obligations.ReservedOpcodesAreRefused : Prop :=
  ∀ (s : State) (cmd : CmdWord) (arg : Word) (rest : List HostAction), s.Ready → s.pending = .issue cmd arg :: rest →
    (cmd.toNat / 2048 = 0x06 ∨ cmd.toNat / 2048 = 0x07 ∨ 0x13 ≤ cmd.toNat / 2048) →
    step s = .refused .reservedOpcode

/-- A format-N opcode with cmd[10:0] not zero is refused (R66). -/
def Obligations.ReservedFieldsAreRefused : Prop :=
  ∀ (s : State) (cmd : CmdWord) (arg : Word) (rest : List HostAction), s.Ready → s.pending = .issue cmd arg :: rest →
    (cmd.toNat / 2048 ≤ 0x04 ∨ (0x08 ≤ cmd.toNat / 2048 ∧ cmd.toNat / 2048 ≤ 0x12)) → cmd.toNat % 2048 ≠ 0 →
    step s = .refused .reservedField

/-- EXTR with W = 0 or W in 33..63 is refused (R67). -/
def Obligations.ExtractWidthsAreRefused : Prop :=
  ∀ (s : State) (cmd : CmdWord) (arg : Word) (rest : List HostAction), s.Ready → s.pending = .issue cmd arg :: rest →
    cmd.toNat / 2048 = 0x05 → (cmd.toNat / 32 % 64 = 0 ∨ 33 ≤ cmd.toNat / 32 % 64) →
    step s = .refused .extractWidth

/-! ## Steps -/

/-- One host action issues one command, and the core decodes it and performs its rule in one atomic step (R61): around
`exec` the step takes the action off the host's list, makes the position one more, samples the command (BUSY = 1) and
at the end makes BUSY 0. The host's list and the position are the model's form of R29 (log entry 8), the sampled command
the model's form of BUSY (log entry 6). -/
def Obligations.StepRunsTheDecodedCommand : Prop :=
  ∀ (s : State) (cmd : CmdWord) (arg : Word) (rest : List HostAction) (i : Instr), s.Ready →
    s.pending = .issue cmd arg :: rest → decode cmd arg = .ok i →
    step s =
      match exec i { s with
          pending := rest
          position := s.position + 1
          inFlight := some { cmd := cmd, arg := arg, left := Config.latency (cmd.extractLsb' 11 5) } } with
      | .next t => .next { t with inFlight := none }
      | .fault r => .fault r
      | .refused r => .refused r

/-- Each accepted command advances the program position by one, and nothing else changes it (R29): over one step, where a
busy core accepts nothing and the host holds its command (R60), and over one clock edge. The field and the host's list
are the model's form of it (log entry 8), the step of a busy core is log entry 7. -/
def Obligations.OnlyAcceptedCommandsAdvanceThePosition : Prop :=
  (∀ (s t : State) (cmd : CmdWord) (arg : Word) (rest : List HostAction), s.Ready →
    s.pending = .issue cmd arg :: rest → step s = .next t → t.position = s.position + 1)
  ∧ (∀ s t : State, (∀ cmd arg rest, s.pending ≠ .issue cmd arg :: rest) → step s = .next t →
    t.position = s.position)
  ∧ (∀ (s t : State) (cmd : CmdWord) (arg : Word) (rest : List HostAction), s.cmdReady = false →
    s.pending = .issue cmd arg :: rest → step s = .next t → t.position = s.position ∧ t.pending = s.pending)
  ∧ ∀ (inp : PortIn) (s t : State), clockEdge inp s = .next t →
      t.position = if inp.rst = false ∧ inp.cmdValid = true ∧ s.cmdReady = true then s.position + 1 else s.position

/-- A host read (R134, R48): RSP is delivered and nothing but the host's side changes; while RSP_VALID = 0 it is the fault
UnwrittenResult. That the host keeps what it read in a list is the model's choice (log entry 9). -/
def Obligations.HostReadDeliversOrFaults : Prop :=
  ∀ (s : State) (rest : List HostAction), s.unmarked = true → s.pending = .readRsp :: rest →
    (s.rspValid = true → step s = .next { s with pending := rest, received := s.received ++ [s.rsp] })
    ∧ (s.rspValid = false → step s = .fault .unwrittenResult)

/-- An idle core with nothing to do stays as it is (R139), over one step and over one clock edge at which the host neither
resets nor offers a command (R60); that such a state has a step at all is the model's choice (log entry 8). -/
def Obligations.IdleCoreStaysAsItIs : Prop :=
  (∀ s : State, s.Ready → s.pending = [] → step s = .next s)
  ∧ ∀ (s : State) (inp : PortIn), s.Ready → inp.rst = false → inp.cmdValid = false → clockEdge inp s = .next s

/-- No later step clears a mark, reset included (R32, R133, R134): once a step is refused or faults, any number of recorded
steps leaves the state at which it happened, with the mark set and nothing else changed (the recording of a mark in the
state is the model's choice, log entry 16); a marked core answers its mark at every step and clock edge; and a command
the step refuses is refused by the clocked port whatever edges follow, resets included (that this is at the accepting
edge is the model's choice, log entry 20). -/
def Obligations.MarksArePermanent : Prop :=
  (∀ (s : State) (r : Refusal) (k : Nat), step s = .refused r → advanceN (k + 1) s = { s with refusedMark := some r })
  ∧ (∀ (s : State) (r : Fault) (k : Nat), step s = .fault r → advanceN (k + 1) s = { s with faultRecord := some r })
  ∧ (∀ (s : State) (r : Refusal) (inp : PortIn), s.refusedMark = some r →
    step s = .refused r ∧ clockEdge inp s = .refused r)
  ∧ (∀ (s : State) (r : Fault) (inp : PortIn), s.refusedMark = none → s.faultRecord = some r →
    step s = .fault r ∧ clockEdge inp s = .fault r)
  ∧ ∀ (s : State) (cmd : CmdWord) (arg : Word) (r : Refusal) (ins : List PortIn), s.Ready →
      step { s with pending := .issue cmd arg :: s.pending } = .refused r →
      clockRun (offerInput cmd arg :: ins) s = .refused r

/-- A configuration that breaks R101 is refused as a whole before any step (R133); one that meets it is built as supplied,
with no mark. -/
def Obligations.BadLayoutIsRefusedBeforeAnyStep : Prop :=
  ∀ raw : RawLayout,
    (¬ raw.MeetsR101 → ∀ acts : List HostAction,
      step { State.configured raw with pending := acts } = .refused .badLayout)
    ∧ (raw.MeetsR101 → (State.configured raw).unmarked = true
      ∧ (∀ f, ((State.configured raw).layout.off f).toNat = (raw.spec f).off
        ∧ (State.configured raw).layout.mask f = (raw.spec f).mask)
      ∧ (State.configured raw).layout.tokAddrOff.toNat = raw.tokAddrOff
      ∧ (State.configured raw).layout.tokEpOff.toNat = raw.tokEpOff
      ∧ (State.configured raw).layout.splHubOff.toNat = raw.splHubOff
      ∧ (State.configured raw).layout.splScOff.toNat = raw.splScOff)

/-- Every step keeps the machine's invariant: between steps BUSY = 0 and there is no mark (R24, R61), LAYOUT is the one
built in (R9), and position and pending commands add up to the program (R29; the fields are the model's form of these
rules, log entries 1, 6 and 8). Every clock edge keeps its own invariant: no mark, LAYOUT as built in, and a command in
progress is one the core performs (R133; that a refused command never gets in progress is the model's choice, log entry
20). -/
def Obligations.EveryStepKeepsTheMachineInvariant : Prop :=
  (∀ (l : Layout) (n : Nat) (s t : State), s.Inv l n → step s = .next t → t.Inv l n)
  ∧ ∀ (l : Layout) (inp : PortIn) (s t : State), s.ClockInv l → clockEdge inp s = .next t → t.ClockInv l

/-- Both invariants hold at reset, with the LAYOUT the hardware was built with and a program of no commands (the position
0, the empty list and the free LAYOUT at reset are the model's choices, log entries 1 and 8). -/
def Obligations.ResetMeetsTheMachineInvariant : Prop :=
  State.reset.Inv Config.layout 0 ∧ State.reset.ClockInv Config.layout

/-! ## The clocked port -/

/-- The clocked core does what the atomic step does (R60, R61, R162): a command offered to an idle core and then LAT_op
edges without reset, whatever the host puts on the port meanwhile, give exactly the outcome of the one step that
issues the command (LAT_op is the free value of log entry 12; the two granularities are log entry 7). -/
def Obligations.ClockedRunIsTheAtomicStep : Prop :=
  ∀ (s : State) (cmd : CmdWord) (arg : Word) (ins : List PortIn), s.Ready →
    ins.length = Config.latency (opField cmd) → (∀ inp ∈ ins, inp.rst = false) →
    clockRun (offerInput cmd arg :: ins) s = step { s with pending := .issue cmd arg :: s.pending }

/-- Every accepted command completes after finitely many cycles (R166): a command in progress is done, and cmd_ready is 1
again, once its remaining cycles have passed without reset. -/
def Obligations.AcceptedCommandsCompleteInTime : Prop :=
  (∀ op, 1 ≤ Config.latency op)
  ∧ ∀ (s : State) (f : Flight) (i : Instr) (ins : List PortIn), s.unmarked = true → s.inFlight = some f →
      decode f.cmd f.arg = .ok i → i.accepted = true → ins.length = max f.left 1 → (∀ inp ∈ ins, inp.rst = false) →
      ∃ t, clockRun ins s = .next t ∧ t.cmdReady = true

/-- While BUSY = 1 rsp and rsp_valid show the values from before the command, and nothing more is accepted (R60, R162): from
the edge that accepts a command the core performs, over fewer than LAT_op edges without reset, whatever the host offers;
and from any state with a command in progress, over fewer edges than it has cycles left. The position counts the accepted
command alone (log entry 8); that a refused command is never in progress is log entry 20. -/
def Obligations.BusyCoreShowsTheOldResult : Prop :=
  (∀ (s : State) (cmd : CmdWord) (arg : Word) (i : Instr) (ins : List PortIn), s.Ready →
    decode cmd arg = .ok i → i.accepted = true → ins.length < Config.latency (opField cmd) →
    (∀ inp ∈ ins, inp.rst = false) →
    ∃ t, clockRun (offerInput cmd arg :: ins) s = .next t
      ∧ portOut t = { cmdReady := false, rsp := s.rsp, rspValid := s.rspValid } ∧ t.position = s.position + 1)
  ∧ ∀ (s : State) (f : Flight) (ins : List PortIn), s.unmarked = true → s.inFlight = some f →
      ins.length < f.left → (∀ inp ∈ ins, inp.rst = false) →
      ∃ t, clockRun ins s = .next t
        ∧ portOut t = { cmdReady := false, rsp := s.rsp, rspValid := s.rspValid } ∧ t.position = s.position

/-- A command in progress when reset arrives is abandoned (R150): none of its effects happen, so the state is the reset
state of the state before the command, with the command counted as issued (the model's choice, log entry 8; the values
`resetCore` gives RSP and C5_* are the choices of log entry 18, the same on both sides here). The command is one the core
performs: a refused one never gets in progress (log entry 20). -/
def Obligations.ResetAbandonsTheCommandInProgress : Prop :=
  ∀ (s : State) (cmd : CmdWord) (arg : Word) (i : Instr) (ins : List PortIn) (last : PortIn), s.Ready →
    decode cmd arg = .ok i → i.accepted = true → ins.length < Config.latency (opField cmd) → (∀ inp ∈ ins, inp.rst = false) → last.rst = true →
    clockRun (offerInput cmd arg :: (ins ++ [last])) s = .next (resetCore { s with position := s.position + 1 })

/-! ## The assembler -/

/-- The assembler never emits a refused encoding (R70): every command of an assembled line is accepted, and its word and
operand read back as it. The text accepted is R70's, with the choices of log entry 15. -/
def Obligations.AssemblerNeverEmitsARefusedCommand : Prop :=
  ∀ (l : Layout) (line : List Char) (is : List Instr) (i : Instr), assemble l line = some is → i ∈ is →
    i.accepted = true ∧ decode (encodeCmd i) (encodeArg i) = .ok i

/-- The pseudo-instructions (R71): crc16 feeds its bytes in order and delivers the source's usb_crc16 of them; c5tok gives the CRC-5 of address and endpoint in the
token layout; extrf, where it is accepted, gives the raw field of the LAYOUT. -/
def Obligations.PseudoInstructionsMeanTheirExpansions : Prop :=
  (∀ (bytes : List Byte) (s : State), bytesFed (crc16Pseudo bytes) = bytes
    ∧ ∃ a : Half, execAll (crc16Pseudo bytes) s
      = .next { s with acc16 := a, rsp := (usbCrc16 bytes).setWidth 32, rspValid := true })
  ∧ (∀ (a : BitVec 7) (e : BitVec 4) (s : State), ∃ (r : C5Regs) (n : Nat), exec (c5tokPseudo a e) s
      = .next { s with rsp := (crc5 (e ++ a)).setWidth 32, rspValid := true, c5 := r, draws := n })
  ∧ ∀ (l : Layout) (f : RecordField) (arg : Word) (i : Instr) (s : State), extrfPseudo l f arg = some i →
      exec i s = .next { s with rsp := (arg >>> (l.off f).toNat) &&& l.mask f, rspValid := true }
end

