-- ==== Sys2Proof/Laws/State.lean ====
section
/-! SUPPORT. One lemma per field per update of the state, so that no proof unfolds a record update. -/

namespace Sys2Proof.Machine

@[simp] theorem accept_acc16 (cmd : CmdWord) (arg : Word) (s : State) :
    (accept cmd arg s).acc16 = s.acc16 := rfl

@[simp] theorem accept_rsp (cmd : CmdWord) (arg : Word) (s : State) :
    (accept cmd arg s).rsp = s.rsp := rfl

@[simp] theorem accept_rspValid (cmd : CmdWord) (arg : Word) (s : State) :
    (accept cmd arg s).rspValid = s.rspValid := rfl

@[simp] theorem accept_inFlight (cmd : CmdWord) (arg : Word) (s : State) :
    (accept cmd arg s).inFlight = some { cmd := cmd, arg := arg, left := Config.latency (opField cmd) } := rfl

@[simp] theorem accept_c5 (cmd : CmdWord) (arg : Word) (s : State) :
    (accept cmd arg s).c5 = s.c5 := rfl

@[simp] theorem accept_layout (cmd : CmdWord) (arg : Word) (s : State) :
    (accept cmd arg s).layout = s.layout := rfl

@[simp] theorem accept_refusedMark (cmd : CmdWord) (arg : Word) (s : State) :
    (accept cmd arg s).refusedMark = s.refusedMark := rfl

@[simp] theorem accept_faultRecord (cmd : CmdWord) (arg : Word) (s : State) :
    (accept cmd arg s).faultRecord = s.faultRecord := rfl

@[simp] theorem accept_pending (cmd : CmdWord) (arg : Word) (s : State) :
    (accept cmd arg s).pending = s.pending := rfl

@[simp] theorem accept_position (cmd : CmdWord) (arg : Word) (s : State) :
    (accept cmd arg s).position = s.position + 1 := rfl

@[simp] theorem accept_received (cmd : CmdWord) (arg : Word) (s : State) :
    (accept cmd arg s).received = s.received := rfl

@[simp] theorem accept_draws (cmd : CmdWord) (arg : Word) (s : State) :
    (accept cmd arg s).draws = s.draws := rfl

@[simp] theorem release_acc16 (s : State) :
    (release s).acc16 = s.acc16 := rfl

@[simp] theorem release_rsp (s : State) :
    (release s).rsp = s.rsp := rfl

@[simp] theorem release_rspValid (s : State) :
    (release s).rspValid = s.rspValid := rfl

@[simp] theorem release_inFlight (s : State) :
    (release s).inFlight = none := rfl

@[simp] theorem release_c5 (s : State) :
    (release s).c5 = s.c5 := rfl

@[simp] theorem release_layout (s : State) :
    (release s).layout = s.layout := rfl

@[simp] theorem release_refusedMark (s : State) :
    (release s).refusedMark = s.refusedMark := rfl

@[simp] theorem release_faultRecord (s : State) :
    (release s).faultRecord = s.faultRecord := rfl

@[simp] theorem release_pending (s : State) :
    (release s).pending = s.pending := rfl

@[simp] theorem release_position (s : State) :
    (release s).position = s.position := rfl

@[simp] theorem release_received (s : State) :
    (release s).received = s.received := rfl

@[simp] theorem release_draws (s : State) :
    (release s).draws = s.draws := rfl

@[simp] theorem resetCore_acc16 (s : State) :
    (resetCore s).acc16 = 0xFFFF#16 := rfl

@[simp] theorem resetCore_rsp (s : State) :
    (resetCore s).rsp = 0#32 := rfl

@[simp] theorem resetCore_rspValid (s : State) :
    (resetCore s).rspValid = false := rfl

@[simp] theorem resetCore_inFlight (s : State) :
    (resetCore s).inFlight = none := rfl

@[simp] theorem resetCore_c5 (s : State) :
    (resetCore s).c5 = { c := 0#16, d := 0#16, n := 0#4 } := rfl

@[simp] theorem resetCore_layout (s : State) :
    (resetCore s).layout = s.layout := rfl

@[simp] theorem resetCore_refusedMark (s : State) :
    (resetCore s).refusedMark = s.refusedMark := rfl

@[simp] theorem resetCore_faultRecord (s : State) :
    (resetCore s).faultRecord = s.faultRecord := rfl

@[simp] theorem resetCore_pending (s : State) :
    (resetCore s).pending = s.pending := rfl

@[simp] theorem resetCore_position (s : State) :
    (resetCore s).position = s.position := rfl

@[simp] theorem resetCore_received (s : State) :
    (resetCore s).received = s.received := rfl

@[simp] theorem resetCore_draws (s : State) :
    (resetCore s).draws = s.draws := rfl

@[simp] theorem releaseC5_acc16 (s : State) :
    (releaseC5 s).acc16 = s.acc16 := rfl

@[simp] theorem releaseC5_rsp (s : State) :
    (releaseC5 s).rsp = s.rsp := rfl

@[simp] theorem releaseC5_rspValid (s : State) :
    (releaseC5 s).rspValid = s.rspValid := rfl

@[simp] theorem releaseC5_inFlight (s : State) :
    (releaseC5 s).inFlight = s.inFlight := rfl

@[simp] theorem releaseC5_c5 (s : State) :
    (releaseC5 s).c5 = { c := Config.freeC5C s.draws, d := Config.freeC5D s.draws, n := Config.freeC5N s.draws } := rfl

@[simp] theorem releaseC5_layout (s : State) :
    (releaseC5 s).layout = s.layout := rfl

@[simp] theorem releaseC5_refusedMark (s : State) :
    (releaseC5 s).refusedMark = s.refusedMark := rfl

@[simp] theorem releaseC5_faultRecord (s : State) :
    (releaseC5 s).faultRecord = s.faultRecord := rfl

@[simp] theorem releaseC5_pending (s : State) :
    (releaseC5 s).pending = s.pending := rfl

@[simp] theorem releaseC5_position (s : State) :
    (releaseC5 s).position = s.position := rfl

@[simp] theorem releaseC5_received (s : State) :
    (releaseC5 s).received = s.received := rfl

@[simp] theorem releaseC5_draws (s : State) :
    (releaseC5 s).draws = s.draws + 1 := rfl

@[simp] theorem placeCommand_acc16 (nbits w : Nat) (s : State) :
    (placeCommand nbits w s).acc16 = s.acc16 := rfl

@[simp] theorem placeCommand_rsp (nbits w : Nat) (s : State) :
    (placeCommand nbits w s).rsp = s.rsp := rfl

@[simp] theorem placeCommand_rspValid (nbits w : Nat) (s : State) :
    (placeCommand nbits w s).rspValid = s.rspValid := rfl

@[simp] theorem placeCommand_inFlight (nbits w : Nat) (s : State) :
    (placeCommand nbits w s).inFlight = none := rfl

@[simp] theorem placeCommand_c5 (nbits w : Nat) (s : State) :
    (placeCommand nbits w s).c5 = s.c5 := rfl

@[simp] theorem placeCommand_layout (nbits w : Nat) (s : State) :
    (placeCommand nbits w s).layout = s.layout := rfl

@[simp] theorem placeCommand_refusedMark (nbits w : Nat) (s : State) :
    (placeCommand nbits w s).refusedMark = none := rfl

@[simp] theorem placeCommand_faultRecord (nbits w : Nat) (s : State) :
    (placeCommand nbits w s).faultRecord = none := rfl

@[simp] theorem placeCommand_pending (nbits w : Nat) (s : State) :
    (placeCommand nbits w s).pending = .issue (tableCmd nbits w) (tableArg nbits w) :: s.pending := rfl

@[simp] theorem placeCommand_position (nbits w : Nat) (s : State) :
    (placeCommand nbits w s).position = s.position := rfl

@[simp] theorem placeCommand_received (nbits w : Nat) (s : State) :
    (placeCommand nbits w s).received = s.received := rfl

@[simp] theorem placeCommand_draws (nbits w : Nat) (s : State) :
    (placeCommand nbits w s).draws = s.draws := rfl

end Sys2Proof.Machine
end

