-- ==== Sys2Proof/Laws/Ops.lean ====
section
/-! SUPPORT. One lemma per shared operation that says what it can do; proofs cite these instead of unfolding the
operations. -/

namespace Sys2Proof.Machine

@[simp] theorem result_next {n : Nat} (v : BitVec n) (s : State) :
    result v s = .next { s with rsp := v.setWidth 32, rspValid := true } := rfl

@[simp] theorem setAcc_next (v : Half) (s : State) : setAcc v s = .next { s with acc16 := v } := rfl

/-- The one thing `resultCrc5` does. -/
theorem resultCrc5_next (p : BitVec 11) (s : State) :
    resultCrc5 p s = .next { releaseC5 s with rsp := (crc5 p).setWidth 32, rspValid := true } := rfl

@[simp] theorem mapNext_next (f : State → State) (s : State) : mapNext f (.next s) = .next (f s) := rfl

@[simp] theorem mapNext_fault (f : State → State) (r : Fault) : mapNext f (.fault r) = .fault r := rfl

@[simp] theorem mapNext_refused (f : State → State) (r : Refusal) : mapNext f (.refused r) = .refused r := rfl

/-- A mapped outcome is a next state exactly when the outcome was one. -/
theorem mapNext_eq_next {f : State → State} {o : Host.Outcome State Fault Refusal} {t : State}
    (h : mapNext f o = .next t) : ∃ u, o = .next u ∧ t = f u := by
  cases o with
  | next u => exact ⟨u, rfl, by simpa using h.symm⟩
  | fault r => simp at h
  | refused r => simp at h

/-- What a host read can answer. -/
theorem hostRead_cases (s : State) :
    (s.rspValid = true ∧ hostRead s = .next s.rsp) ∨ (s.rspValid = false ∧ hostRead s = .fault .unwrittenResult) := by
  cases h : s.rspValid <;> simp [hostRead, h]

/-- Everything a command can do when it answers a next state: it writes ACC16, RSP, RSP_VALID, C5_* and the draw counter at
most. -/
theorem exec_next_shape {i : Instr} {s t : State} (h : exec i s = .next t) :
    ∃ a v b r n, t = { s with acc16 := a, rsp := v, rspValid := b, c5 := r, draws := n } := by
  cases i with
  | nop => cases h; exact ⟨_, _, _, _, _, rfl⟩
  | c16init => cases h; exact ⟨_, _, _, _, _, rfl⟩
  | c16byte arg => cases h; exact ⟨_, _, _, _, _, rfl⟩
  | c16fin => cases h; exact ⟨_, _, _, _, _, rfl⟩
  | c5 arg =>
    simp only [exec, execC5] at h
    split at h
    · cases h; exact ⟨_, _, _, _, _, rfl⟩
    · cases h
  | extr o w arg =>
    simp only [exec, execExtr] at h
    split at h
    · cases h; exact ⟨_, _, _, _, _, rfl⟩
    · cases h
  | xpid arg => cases h; exact ⟨_, _, _, _, _, rfl⟩
  | xcyc arg => cases h; exact ⟨_, _, _, _, _, rfl⟩
  | xrst arg => cases h; exact ⟨_, _, _, _, _, rfl⟩
  | xtaddr arg => cases h; exact ⟨_, _, _, _, _, rfl⟩
  | xtep arg => cases h; exact ⟨_, _, _, _, _, rfl⟩
  | xtcrc arg => cases h; exact ⟨_, _, _, _, _, rfl⟩
  | xlen arg => cases h; exact ⟨_, _, _, _, _, rfl⟩
  | xframe arg => cases h; exact ⟨_, _, _, _, _, rfl⟩
  | xscrc arg => cases h; exact ⟨_, _, _, _, _, rfl⟩
  | xshub arg => cases h; exact ⟨_, _, _, _, _, rfl⟩
  | xssc arg => cases h; exact ⟨_, _, _, _, _, rfl⟩

/-- Everything completion can do when it answers a next state: nothing on an idle core, else the decoded command's effect
with BUSY = 0. -/
theorem complete_next_cases {s t : State} (h : complete s = .next t) :
    (s.inFlight = none ∧ t = s) ∨
      ∃ f i u, s.inFlight = some f ∧ decode f.cmd f.arg = .ok i ∧ exec i s = .next u ∧ t = release u := by
  unfold complete at h
  split at h
  · rename_i hf
    cases h
    exact .inl ⟨hf, rfl⟩
  · rename_i f hf
    split at h
    · rename_i i hi
      obtain ⟨u, hu, rfl⟩ := mapNext_eq_next h
      exact .inr ⟨f, i, u, hf, hi, hu, rfl⟩
    · cases h

/-- Completion leaves BUSY = 0. -/
theorem complete_next_idle {s t : State} (h : complete s = .next t) : t.inFlight = none := by
  obtain ⟨hf, rfl⟩ | ⟨f, i, u, -, -, -, rfl⟩ := complete_next_cases h
  · exact hf
  · rfl

/-- Everything a step can do when it answers a next state. -/
theorem step_next_cases {s t : State} (h : step s = .next t) :
    s.refusedMark = none ∧ s.faultRecord = none ∧
      ((s.pending = [] ∧ complete s = .next t) ∨
        (∃ cmd arg rest, s.pending = .issue cmd arg :: rest ∧ s.cmdReady = true ∧
          complete (accept cmd arg { s with pending := rest }) = .next t) ∨
        (∃ cmd arg rest, s.pending = .issue cmd arg :: rest ∧ s.cmdReady = false ∧ complete s = .next t) ∨
        (∃ rest, s.pending = .readRsp :: rest ∧ s.rspValid = true ∧
          t = { s with pending := rest, received := s.received ++ [s.rsp] }) ∨
        ∃ rest, s.pending = .reset :: rest ∧ t = resetCore { s with pending := rest }) := by
  unfold step takeStep at h
  split at h
  · cases h
  · rename_i hr
    split at h
    · cases h
    · rename_i hf
      refine ⟨hr, hf, ?_⟩
      unfold hostActs at h
      split at h
      · exact .inl ⟨by assumption, h⟩
      · rename_i cmd arg rest hp
        unfold hostIssues at h
        split at h
        · exact .inr (.inl ⟨cmd, arg, rest, hp, by assumption, h⟩)
        · exact .inr (.inr (.inl ⟨cmd, arg, rest, hp, by simp_all, h⟩))
      · rename_i rest hp
        obtain ⟨hv, hread⟩ | ⟨hv, hread⟩ := hostRead_cases s
        · simp only [hostReads, hread] at h
          cases h
          exact .inr (.inr (.inr (.inl ⟨rest, hp, hv, rfl⟩)))
        · simp [hostReads, hread] at h
      · rename_i rest hp
        cases h
        exact .inr (.inr (.inr (.inr ⟨rest, hp, rfl⟩)))

/-- Everything the accepting edge can do when it answers a next state: the command is in progress, and its atomic step is
no refusal (log entry 20). -/
theorem acceptEdge_next_cases {cmd : CmdWord} {arg : Word} {s t : State} (h : acceptEdge cmd arg s = .next t) :
    t = accept cmd arg s ∧ ∃ u, complete (accept cmd arg s) = .next u := by
  obtain ⟨u, hu, rfl⟩ := mapNext_eq_next h
  exact ⟨rfl, u, hu⟩

/-- The accepting edge refuses what the atomic step refuses (log entry 20). -/
theorem acceptEdge_refused {cmd : CmdWord} {arg : Word} {s : State} {r : Refusal}
    (h : complete (accept cmd arg s) = .refused r) : acceptEdge cmd arg s = .refused r := by
  simp [acceptEdge, h]

/-- Everything a clock edge can do when it answers a next state. -/
theorem clockEdge_next_cases {inp : PortIn} {s t : State} (h : clockEdge inp s = .next t) :
    s.refusedMark = none ∧ s.faultRecord = none ∧
      ((inp.rst = true ∧ t = resetCore s) ∨
        (inp.rst = false ∧ ∃ f, s.inFlight = some f ∧
          (f.left ≤ 1 ∧ complete s = .next t ∨
            1 < f.left ∧ t = { s with inFlight := some { f with left := f.left - 1 } })) ∨
        (inp.rst = false ∧ s.inFlight = none ∧ inp.cmdValid = true ∧ acceptEdge inp.cmd inp.arg s = .next t) ∨
        (inp.rst = false ∧ s.inFlight = none ∧ inp.cmdValid = false ∧ t = s)) := by
  unfold clockEdge at h
  split at h
  · cases h
  · rename_i hr
    split at h
    · cases h
    · rename_i hf
      refine ⟨hr, hf, ?_⟩
      unfold liveEdge at h
      split at h
      · rename_i hrst
        cases h
        exact .inl ⟨hrst, rfl⟩
      · rename_i hrst
        have hrst : inp.rst = false := by simpa using hrst
        split at h
        · rename_i f hfl
          unfold flightEdge at h
          split at h
          · exact .inr (.inl ⟨hrst, f, hfl, .inl ⟨by assumption, h⟩⟩)
          · cases h
            exact .inr (.inl ⟨hrst, f, hfl, .inr ⟨by omega, rfl⟩⟩)
        · rename_i hfl
          unfold idleEdge at h
          split at h
          · exact .inr (.inr (.inl ⟨hrst, hfl, by assumption, h⟩))
          · cases h
            exact .inr (.inr (.inr ⟨hrst, hfl, by simp_all, rfl⟩))

/-- A marked core answers its mark at every clock edge (60_exceptions.md R133). -/
theorem clockEdge_of_refusedMark {inp : PortIn} {s : State} {r : Refusal} (h : s.refusedMark = some r) :
    clockEdge inp s = .refused r := by
  simp [clockEdge, h]

/-- A faulted core answers its fault at every clock edge (60_exceptions.md R134). -/
theorem clockEdge_of_faultRecord {inp : PortIn} {s : State} {r : Fault} (hm : s.refusedMark = none)
    (h : s.faultRecord = some r) : clockEdge inp s = .fault r := by
  simp [clockEdge, hm, h]

/-- A marked state answers its mark (60_exceptions.md R133). -/
theorem step_of_refusedMark {s : State} {r : Refusal} (h : s.refusedMark = some r) : step s = .refused r := by
  simp [step, takeStep, h]

/-- A faulted state answers its fault (60_exceptions.md R134). -/
theorem step_of_faultRecord {s : State} {r : Fault} (hm : s.refusedMark = none) (h : s.faultRecord = some r) :
    step s = .fault r := by
  simp [step, takeStep, hm, h]

/-- The placed command is the one the next step completes (log entry 10). -/
theorem step_withFetchWord (s : State) (nbits w : Nat) :
    step (s.withFetchWord nbits w)
      = complete (accept (tableCmd nbits w) (tableArg nbits w)
          { s with inFlight := none, refusedMark := none, faultRecord := none }) := rfl

end Sys2Proof.Machine
end

