-- ==== Sys2Proof/Laws/PerInstr.lean ====
section
/-! SUPPORT. A family of statements about every command as syntax: the fields of its word. -/

/-- The opcode field and the low field of a command's word are those of the opcode map (30_encoding.md R62, R64), and only
EXTR has a low field that is not zero. -/
def Sys2Proof.Laws.WordFields.Statement (i : Sys2Proof.Instr) : Prop :=
  Sys2Proof.opField (Sys2Proof.encodeCmd i) = i.opcode ∧ Sys2Proof.lowField (Sys2Proof.encodeCmd i) = i.lowBits
    ∧ (i.opcode = 0x05#5 ∨ i.lowBits = 0#11)

namespace Sys2Proof.Laws.WordFields

/-- The two parts of a word of the format of 30_encoding.md R62. -/
theorem word_fields (a : BitVec 5) (b : BitVec 11) :
    opField ((a.setWidth 16 <<< 11) ||| b.setWidth 16) = a ∧ lowField ((a.setWidth 16 <<< 11) ||| b.setWidth 16) = b := by
  constructor
  · ext k hk
    have : ¬ 11 + k < 11 := by omega
    simp [opField, hk, show 11 + k < 16 by omega]
  · ext k hk
    simp [lowField, hk, show k < 16 by omega]

theorem nop : Statement .nop := by
  exact ⟨(word_fields _ _).1, (word_fields _ _).2, .inr rfl⟩

theorem c16init : Statement .c16init := by
  exact ⟨(word_fields _ _).1, (word_fields _ _).2, .inr rfl⟩

theorem c16byte (arg : Word) : Statement (.c16byte arg) := by
  exact ⟨(word_fields _ _).1, (word_fields _ _).2, .inr rfl⟩

theorem c16fin : Statement .c16fin := by
  exact ⟨(word_fields _ _).1, (word_fields _ _).2, .inr rfl⟩

theorem c5 (arg : Word) : Statement (.c5 arg) := by
  exact ⟨(word_fields _ _).1, (word_fields _ _).2, .inr rfl⟩

theorem extr (o : BitVec 5) (w : BitVec 6) (arg : Word) : Statement (.extr o w arg) := by
  exact ⟨(word_fields _ _).1, (word_fields _ _).2, .inl rfl⟩

theorem xpid (arg : Word) : Statement (.xpid arg) := by
  exact ⟨(word_fields _ _).1, (word_fields _ _).2, .inr rfl⟩

theorem xcyc (arg : Word) : Statement (.xcyc arg) := by
  exact ⟨(word_fields _ _).1, (word_fields _ _).2, .inr rfl⟩

theorem xrst (arg : Word) : Statement (.xrst arg) := by
  exact ⟨(word_fields _ _).1, (word_fields _ _).2, .inr rfl⟩

theorem xtaddr (arg : Word) : Statement (.xtaddr arg) := by
  exact ⟨(word_fields _ _).1, (word_fields _ _).2, .inr rfl⟩

theorem xtep (arg : Word) : Statement (.xtep arg) := by
  exact ⟨(word_fields _ _).1, (word_fields _ _).2, .inr rfl⟩

theorem xtcrc (arg : Word) : Statement (.xtcrc arg) := by
  exact ⟨(word_fields _ _).1, (word_fields _ _).2, .inr rfl⟩

theorem xlen (arg : Word) : Statement (.xlen arg) := by
  exact ⟨(word_fields _ _).1, (word_fields _ _).2, .inr rfl⟩

theorem xframe (arg : Word) : Statement (.xframe arg) := by
  exact ⟨(word_fields _ _).1, (word_fields _ _).2, .inr rfl⟩

theorem xscrc (arg : Word) : Statement (.xscrc arg) := by
  exact ⟨(word_fields _ _).1, (word_fields _ _).2, .inr rfl⟩

theorem xshub (arg : Word) : Statement (.xshub arg) := by
  exact ⟨(word_fields _ _).1, (word_fields _ _).2, .inr rfl⟩

theorem xssc (arg : Word) : Statement (.xssc arg) := by
  exact ⟨(word_fields _ _).1, (word_fields _ _).2, .inr rfl⟩

end Sys2Proof.Laws.WordFields
end

