-- ==== Sys2Proof/Tests/Slice0.lean ====
section
/-! SUPPORT. Tests with results from spec/95_test_vectors.md, and a witness for every statement that has hypotheses. -/

namespace Sys2Proof.Tests

open Sys2Proof Sys2Proof.Machine

/-- The test layout L_TEST (95_test_vectors.md section 2); the sub-field offsets are the defaults. -/
def lTest : Layout where
  offPid := 0
  offCycle := 8
  offReset := 4
  offToken := 4
  offLength := 4
  offFrame := 4
  offSplit := 4
  maskCycle := 0xFFFFFF
  maskReset := 0xF
  maskToken := 0xFFFF
  maskLength := 0x7FF
  maskSplit := 0xFFFFFF

/-- The reset state under L_TEST with the host's actions `acts` pending. -/
def start (acts : List HostAction) : State := { State.reset with layout := lTest, pending := acts }

/-- RSP after one step that issues a command, when the step answers a next state. -/
def rspAfter (cmd : CmdWord) (arg : Word) : Option Word :=
  match step (start [.issue cmd arg]) with
  | .next t => if t.rspValid then some t.rsp else none
  | .fault _ => none
  | .refused _ => none

/-- ACC16 after one step that issues a command on a given ACC16. -/
def accAfter (acc : Half) (cmd : CmdWord) (arg : Word) : Option Half :=
  match step { start [.issue cmd arg] with acc16 := acc } with
  | .next t => some t.acc16
  | .fault _ => none
  | .refused _ => none

/-- Why a step stops, if it does. -/
def stopOf (s : State) : Option (Fault ⊕ Refusal) :=
  match step s with
  | .next _ => none
  | .fault r => some (.inl r)
  | .refused r => some (.inr r)

/-! ## WellFormed: a term that each check refuses -/

theorem test_extr_width_zero_is_ill_formed : (Instr.extr 0 0 0).wellFormed = false := by decide

theorem test_extr_width_33_is_ill_formed : (Instr.extr 31 33 0).wellFormed = false := by decide

theorem test_extr_widths_1_and_32_are_well_formed :
    (Instr.extr 31 1 0).wellFormed = true ∧ (Instr.extr 31 32 0).wellFormed = true := by decide

/-! ## Decoding: one word per row, written out from the encodings of 30_encoding.md R62 and R64 -/

theorem test_decode_nop : decodeTableWord 16 0b0000000000000000 = some .nop := by decide

theorem test_decode_c16init : decodeTableWord 16 0b0000100000000000 = some .c16init := by decide

theorem test_decode_c16byte : decodeTableWord 16 0b0001000000000000 = some (.c16byte 0) := by decide

theorem test_decode_c16fin : decodeTableWord 16 0b0001100000000000 = some .c16fin := by decide

theorem test_decode_c5 : decodeTableWord 16 0b0010000000000000 = some (.c5 0) := by decide

/-- V-EX-08: `extr 5, 11` is 0x2965. -/
theorem test_decode_extr : decodeTableWord 16 0b0010100101100101 = some (.extr 5 11 0) := by decide

theorem test_decode_xpid : decodeTableWord 16 0b0100000000000000 = some (.xpid 0) := by decide

theorem test_decode_xcyc : decodeTableWord 16 0b0100100000000000 = some (.xcyc 0) := by decide

theorem test_decode_xrst : decodeTableWord 16 0b0101000000000000 = some (.xrst 0) := by decide

theorem test_decode_xtaddr : decodeTableWord 16 0b0101100000000000 = some (.xtaddr 0) := by decide

theorem test_decode_xtep : decodeTableWord 16 0b0110000000000000 = some (.xtep 0) := by decide

theorem test_decode_xtcrc : decodeTableWord 16 0b0110100000000000 = some (.xtcrc 0) := by decide

theorem test_decode_xlen : decodeTableWord 16 0b0111000000000000 = some (.xlen 0) := by decide

theorem test_decode_xframe : decodeTableWord 16 0b0111100000000000 = some (.xframe 0) := by decide

theorem test_decode_xscrc : decodeTableWord 16 0b1000000000000000 = some (.xscrc 0) := by decide

theorem test_decode_xshub : decodeTableWord 16 0b1000100000000000 = some (.xshub 0) := by decide

theorem test_decode_xssc : decodeTableWord 16 0b1001000000000000 = some (.xssc 0) := by decide

/-- The operand is bits 47:16 of the number (log entry 11). -/
theorem test_decode_with_operand : decodeTableWord 48 0x12345678_4000 = some (.xpid 0x12345678) := by decide

/-- V-EX-04: `extr 4, 8` is 0x2904. -/
theorem test_encode_extr : encode (.extr 4 8 0x12345678) = (0x2904#16, 0x12345678#32) := by decide

/-- V-D-02, V-D-13. -/
theorem test_reserved_field_words :
    stopOf (start [.issue 0x0001 0]) = some (.inr .reservedField)
      ∧ stopOf (start [.issue 0x9001 0]) = some (.inr .reservedField) := by decide

/-- V-D-04, V-D-07, V-D-08: the opcode is checked first. -/
theorem test_reserved_opcode_words :
    stopOf (start [.issue 0x3000 0]) = some (.inr .reservedOpcode)
      ∧ stopOf (start [.issue 0xF800 0]) = some (.inr .reservedOpcode)
      ∧ stopOf (start [.issue 0x37FF 0]) = some (.inr .reservedOpcode) := by decide

/-- V-EX-R1, V-EX-R2, V-EX-R3. -/
theorem test_extract_width_words :
    stopOf (start [.issue 0x2800 0xFFFFFFFF]) = some (.inr .extractWidth)
      ∧ stopOf (start [.issue 0x2C20 0xFFFFFFFF]) = some (.inr .extractWidth)
      ∧ stopOf (start [.issue 0x2FFF 0xFFFFFFFF]) = some (.inr .extractWidth) := by decide

/-- Every row's word is run as the first command after reset. -/
theorem test_first_step_after_reset :
    ([0x0000, 0x0800, 0x1000, 0x1800, 0x2000, 0x2820, 0x4000, 0x4800, 0x5000, 0x5800, 0x6000, 0x6800, 0x7000, 0x7800,
      0x8000, 0x8800, 0x9000].all fun w => (stopOf (State.reset.withFetchWord 16 w)).isNone) = true := by decide

/-! ## The commands: 95_test_vectors.md sections 3.1 to 3.4 -/

/-- 30_encoding.md R73, the example. -/
theorem test_nop_leaves_all :
    exec .nop { start [] with acc16 := 0x1234, rsp := 5, rspValid := true }
      = .next { start [] with acc16 := 0x1234, rsp := 5, rspValid := true } := rfl

/-- 40_crc16.md R81, the example. -/
theorem test_c16init_seeds : accAfter 0x8510 0x0800 0 = some 0xFFFF := by decide

/-- V-C16-S2. -/
theorem test_c16byte_step : accAfter 0x40BF 0x1000 0x01 = some 0x70C0 := by decide

/-- V-C16-S5: arg[31:8] is ignored. -/
theorem test_c16byte_ignores_high_bits : accAfter 0xFFFF 0x1000 0x1FF = some 0x00FF := by decide

/-- V-C16-01: the empty input. -/
theorem test_c16fin_empty : rspAfter 0x1800 0 = some 0 := by decide

/-- 40_crc16.md R83, the example: RSP = 0x7AEF and ACC16 stays. -/
theorem test_c16fin_keeps_acc :
    exec .c16fin { start [] with acc16 := 0x8510 }
      = .next { start [] with acc16 := 0x8510, rsp := 0x7AEF, rspValid := true } := rfl

/-- V-C5-11 and the largest payload, V-C5-09. -/
theorem test_c5_vectors : rspAfter 0x2000 0x1BA = some 0x05 ∧ rspAfter 0x2000 0x7FF = some 0x08 := by decide +kernel

/-- V-C5-R1, V-C5-R2. -/
theorem test_c5_wide_payload :
    stopOf (start [.issue 0x2000 0x800]) = some (.inr .widePayload)
      ∧ stopOf (start [.issue 0x2000 0x80000000]) = some (.inr .widePayload) := by decide

/-- V-C5-TRACE: C5_C ends at 0x5800 for the payload 0x1BA, and C5_D starts at 0x5D80. -/
theorem test_c5_trace : (c5Load 0x1BA).d = 0x5D80 ∧ (c5Run 0x1BA).c = 0x5800 ∧ (c5Run 0x1BA).n = 11 := by decide +kernel

/-- V-EX-03: O + W > 32. -/
theorem test_extr_past_the_top : rspAfter 0x2C1F 0x80000000 = some 1 := by decide

/-- V-EX-08: stages 0 and 2 of the mux tree. -/
theorem test_extr_two_stages : rspAfter 0x2965 0xFFFFFFFF = some 0x7FF := by decide

/-- V-X-PID-1, V-X-PID-2. -/
theorem test_xpid : rspAfter 0x4000 0x00029BA1 = some 0xE1 ∧ rspAfter 0x4000 0xFFFFFFF0 = some 0xF0 := by decide

/-- V-X-CYC-1, V-X-CYC-2. -/
theorem test_xcyc :
    rspAfter 0x4800 0x12345678 = some 0x12345600 ∧ rspAfter 0x4800 0xFFFFFFFF = some 0xFFFFFF00 := by decide

/-- V-X-RST-1, V-X-RST-2. -/
theorem test_xrst : rspAfter 0x5000 0x12345678 = some 0x700 ∧ rspAfter 0x5000 0xFFFFFFFF = some 0xF00 := by decide

/-- V-X-TA-1, V-X-RT. -/
theorem test_xtaddr : rspAfter 0x5800 0x00029BA1 = some 0x3A ∧ rspAfter 0x5800 0xF00F9851 = some 5 := by decide

/-- V-X-TE-1, V-X-RT. -/
theorem test_xtep : rspAfter 0x6000 0x00029BA1 = some 3 ∧ rspAfter 0x6000 0xF00F9851 = some 3 := by decide

/-- V-X-TC-1, V-X-TC-2: wide token data is not refused. -/
theorem test_xtcrc : rspAfter 0x6800 0x00029BA1 = some 5 ∧ rspAfter 0x6800 0xFFFFFFFF = some 8 := by decide +kernel

/-- V-X-LEN-1, V-X-LEN-3. -/
theorem test_xlen : rspAfter 0x7000 0x00000404 = some 0x40 ∧ rspAfter 0x7000 0xFFFFFFFF = some 0x7FF := by decide

/-- V-X-FRAME-3FF, V-X-FRAME-MAX. -/
theorem test_xframe : rspAfter 0x7800 0x00003FF5 = some 1023 ∧ rspAfter 0x7800 0x00007FF5 = some 2047 := by decide

/-- V-X-SC-1, V-X-SC-3. -/
theorem test_xscrc : rspAfter 0x8000 0x0002F105 = some 5 ∧ rspAfter 0x8000 0x00007FF5 = some 8 := by decide +kernel

/-- V-X-HUB-1, V-X-HUB-2. -/
theorem test_xshub : rspAfter 0x8800 0x00000928 = some 0x12 ∧ rspAfter 0x8800 0xFFFFFFFF = some 0x7F := by decide

/-- V-X-SSC-1, V-X-SSC-2. -/
theorem test_xssc : rspAfter 0x9000 0x00000928 = some 1 ∧ rspAfter 0x9000 0xFFFFF7FF = some 0 := by decide

/-! ## The ROM, reset, reads and the assembler -/

/-- V-SRC-01, V-SRC-02, and 10_state.md R27's values. -/
theorem test_rom_entries :
    crcRom.length = 256 ∧ crcTable 1 = 0xC0C1 ∧ crcTable 2 = 0xC181 ∧ crcTable 0 = 0 ∧ crcTable 0x80 = 0xA001
      ∧ crcTable 0xFF = 0x4040 := by decide +kernel

/-- V-R-01: a read of `rsp` right after reset. -/
theorem test_read_after_reset_faults : stopOf (start [.readRsp]) = some (.inl .unwrittenResult) := by decide

/-- V-R-02: none of NOP, C16INIT and C16BYTE writes RSP, so the read after them faults too. -/
theorem test_read_without_result_faults :
    (advanceN 4 (start [.issue 0 0, .issue 0x0800 0, .issue 0x1000 0, .readRsp])).faultRecord
      = some .unwrittenResult := by decide +kernel

/-- V-R-04: the first result is overwritten, and the host reads 2. -/
theorem test_second_result_is_read :
    (advanceN 3 (start [.issue 0x2000 1, .issue 0x2000 0, .readRsp])).received = [2] := by decide +kernel

/-- V-R-05: a reset restores ACC16. -/
theorem test_reset_restores_acc :
    (advanceN 3 (start [.issue 0x1000 1, .reset, .issue 0x1800 0])).rsp = 0 := by decide

/-- V-R-07: the REFUSED mark stays, and C16FIN is not performed. -/
theorem test_refused_mark_stays :
    (advanceN 2 (start [.issue 0x3000 0, .issue 0x1800 0])).refusedMark = some .reservedOpcode
      ∧ (advanceN 2 (start [.issue 0x3000 0, .issue 0x1800 0])).rspValid = false := by decide

/-- 30_encoding.md R70: `extr 5, 11, 0xFFFFFFFF` is 2965:FFFFFFFF. -/
theorem test_assemble_extr :
    assemble lTest ['e', 'x', 't', 'r', ' ', '5', ',', ' ', '1', '1', ',', ' ', '0', 'x', 'F', 'F', 'F', 'F', 'F', 'F', 'F',
        'F', ' ', ';', 'x'] = some [.extr 5 11 0xFFFFFFFF]
      ∧ machineForm (.extr 5 11 0xFFFFFFFF)
        = ['2', '9', '6', '5', ':', 'F', 'F', 'F', 'F', 'F', 'F', 'F', 'F'] := by decide

/-- 30_encoding.md R70: a `c5` operand above 0x7FF is rejected, 0x7FF is not. -/
theorem test_assemble_c5_range :
    assemble lTest ['c', '5', ' ', '0', 'x', '8', '0', '0'] = none
      ∧ assemble lTest ['c', '5', ' ', '0', 'x', '7', 'F', 'F'] = some [.c5 0x7FF] := by decide

/-- 30_encoding.md R71: `c5tok 0x3A, 3` is `c5 0x1BA`. -/
theorem test_assemble_c5tok :
    assemble lTest ['c', '5', 't', 'o', 'k', ' ', '0', 'x', '3', 'A', ',', '3'] = some [.c5 0x1BA] := by decide

/-! ## Witnesses: for every statement with hypotheses, a concrete case that meets all of them -/

/-- An input that resets. -/
def resetInput : PortIn := { rst := true, cmdValid := true, cmd := 0x1800, arg := 0 }

/-- A table at the edge of R101: every offset 31. -/
def edgeTable (off mask : Nat) : RawLayout where
  pid := { off := off, mask := BitVec.ofNat 32 mask }
  cycle := { off := 31, mask := 0xFFFFFF }
  reset := { off := 31, mask := 0 }
  token := { off := 31, mask := 0xFFFFFFFF }
  length := { off := 31, mask := 1 }
  frame := { off := 31, mask := 0x7FF }
  split := { off := 31, mask := 0 }

/-- A core that executes C5 of 0x1BA and has `left` cycles to go. -/
def busyWith (left : Nat) : State := { start [] with inFlight := some { cmd := 0x2000, arg := 0x1BA, left := left } }

/-- 0x3000 is a reserved opcode (30_encoding.md R65), and reset does not undo a refusal (60_exceptions.md R133). -/
theorem test_clock_reset_does_not_undo_refusal :
    clockRun [offerInput 0x3000 0, resetInput] (start []) = .refused .reservedOpcode
      ∧ clockRun [offerInput 0x2000 0x800, resetInput] (start []) = .refused .widePayload := ⟨rfl, rfl⟩

theorem witness_ResetEventTakesTheResetState :
    ((start [.reset]).unmarked = true ∧ (start [.reset]).pending = .reset :: [])
      ∧ ((busyWith 3).unmarked = true ∧ resetInput.rst = true) := by decide

theorem witness_C5DeliversCrc5OrRefuses : (0x7FF#32).toNat ≤ 0x7FF ∧ 0x7FF < (0x800#32).toNat := by decide

theorem witness_ExtrExtractsTheField :
    (1 ≤ (1#6).toNat ∧ (1#6).toNat ≤ 32) ∧ (1 ≤ (32#6).toNat ∧ (32#6).toNat ≤ 32)
      ∧ ((0#6).toNat = 0 ∨ 32 < (0#6).toNat) ∧ ((33#6).toNat = 0 ∨ 32 < (33#6).toNat) := by decide

theorem witness_FieldTakesOnlyBitsOfTheField :
    ∀ k, (lTest.mask .pid).getLsbD k = true →
      (0xFFFFFFF1#32).getLsbD ((lTest.off .pid).toNat + k) = (0x00000001#32).getLsbD ((lTest.off .pid).toNat + k) := by
  intro k h
  have hk : k < 4 := by
    by_contra hc
    have : (0xF#32).getLsbD k = false := by
      have h2 : (0xF#32) = (0xF#4).setWidth 32 := by decide
      rw [h2, BitVec.getLsbD_setWidth, BitVec.getLsbD_of_ge _ _ (by omega), Bool.and_false]
    rw [show lTest.mask .pid = 0xF#32 from rfl, this] at h
    cases h
  interval_cases k <;> decide

theorem witness_XpidFollowsThePidTable :
    15 = ((0xFFFFFFFF#32 >>> (start []).layout.offPid.toNat) &&& 0xF#32).toNat := by decide

theorem witness_TokenFieldsRoundTrip :
    4 = (start []).layout.offToken.toNat + (start []).layout.tokAddrOff.toNat
      ∧ 11 = (start []).layout.offToken.toNat + (start []).layout.tokEpOff.toNat
      ∧ 4 + 7 ≤ 32 ∧ 11 + 4 ≤ 32 ∧ (4 + 7 ≤ 11 ∨ 11 + 4 ≤ 4)
      ∧ (∀ k, k < 7 → (start []).layout.maskToken.getLsbD ((start []).layout.tokAddrOff.toNat + k) = true)
      ∧ ∀ k, k < 4 → (start []).layout.maskToken.getLsbD ((start []).layout.tokEpOff.toNat + k) = true := by decide

theorem witness_ExtractionsArePure :
    ((Instr.xpid 0x29BA1).isCrc16 = false ∧ (start []).layout = (busyWith 2).layout)
      ∧ (Instr.c5 0x7FF).isCrc16 = false ∧ ∃ t, execAll [.xpid 0x29BA1, .c5 0x7FF] (start []) = .next t :=
  ⟨by decide, by decide, _, rfl⟩

theorem witness_StreamComputesUsbCrc16 :
    ∀ i ∈ [Instr.c16byte 0xAA, .xpid 0xC3, .c5 0x7FF, .extr 31 32 5, .c16byte 0x55],
      i.accepted = true ∧ i.startsOrEndsStream = false := by decide

theorem witness_OnlyCrc16CommandsTouchTheAccumulator :
    (Instr.extr 0 32 7).isCrc16 = false ∧ ∃ t, exec (.extr 0 32 7) (start []) = .next t := ⟨by decide, _, rfl⟩

theorem witness_LfsrKeepsLowBitsZero : (0 ≤ 11 ∧ 0 < 11) ∧ (11 ≤ 11 ∧ 10 < 11) := by decide

theorem witness_MirrorReversesThePayload : 10 ≤ 10 ∧ 4 < 5 := by decide

theorem witness_OnlyResultCommandsWriteRsp :
    ((Instr.c16fin).producesResult = true ∧ ∃ t, exec .c16fin (start []) = .next t)
      ∧ (Instr.c16byte 1).producesResult = false ∧ ∃ t, exec (.c16byte 1) (start []) = .next t :=
  ⟨⟨by decide, _, rfl⟩, by decide, _, rfl⟩

theorem witness_OnlyResetClearsRspValid :
    ((∃ t, step { start [.issue 0 0] with rspValid := true } = .next t)
      ∧ ({ start [.issue 0 0] with rspValid := true } : State).rspValid = true
      ∧ ∀ rest, ({ start [.issue 0 0] with rspValid := true } : State).pending ≠ .reset :: rest)
    ∧ (∃ t, clockEdge quietInput { busyWith 1 with rspValid := true } = .next t)
      ∧ ({ busyWith 1 with rspValid := true } : State).rspValid = true ∧ quietInput.rst = false :=
  ⟨⟨⟨_, rfl⟩, rfl, by simp [start]⟩, ⟨_, rfl⟩, rfl, rfl⟩

theorem witness_LatestResultStands :
    (∃ t, execAll [.c16init, .c5 1] (start []) = .next t ∧ ∃ u, exec (.xpid 1) t = .next u)
      ∧ (Instr.xpid 1).producesResult = true
      ∧ ∀ j ∈ [Instr.nop, .c16byte 3, .c16init], j.producesResult = false :=
  ⟨⟨_, rfl, _, rfl⟩, by decide, by decide⟩

theorem witness_CommandsLeaveTheRestAlone :
    (∃ t, exec (.xssc 0x928) (start []) = .next t) ∧ (Instr.xssc 0x928).runsCrc5 = false := ⟨⟨_, rfl⟩, by decide⟩

theorem witness_CommandsNeverFault :
    (Instr.c5 0x7FF).accepted = true ∧ (Instr.c5 0x800).accepted = false ∧ (Instr.extr 0 33 0).accepted = false := by
  decide

theorem witness_DecodeInvertsEncode : (Instr.extr 31 32 0xFFFFFFFF).wellFormed = true := by decide

theorem witness_AcceptedWordsAreEncodings : decode 0x283F 0x80000000 = .ok (.extr 31 1 0x80000000) := rfl

theorem witness_ReservedOpcodesAreRefused :
    ((start [.issue 0x37FF 1]).Ready ∧ (start [.issue 0x37FF 1]).pending = .issue 0x37FF 1 :: []
      ∧ (0x37FF#16).toNat / 2048 = 0x06)
    ∧ (0x3800#16).toNat / 2048 = 0x07 ∧ 0x13 ≤ (0x9800#16).toNat / 2048 ∧ 0x13 ≤ (0xFFFF#16).toNat / 2048 := by decide

theorem witness_ReservedFieldsAreRefused :
    ((start [.issue 0x2001 1]).Ready ∧ (start [.issue 0x2001 1]).pending = .issue 0x2001 1 :: []
      ∧ (0x2001#16).toNat / 2048 ≤ 0x04 ∧ (0x2001#16).toNat % 2048 ≠ 0)
    ∧ (0x08 ≤ (0x97FF#16).toNat / 2048 ∧ (0x97FF#16).toNat / 2048 ≤ 0x12 ∧ (0x97FF#16).toNat % 2048 ≠ 0)
    ∧ 0x08 ≤ (0x4001#16).toNat / 2048 := by decide

theorem witness_ExtractWidthsAreRefused :
    ((start [.issue 0x2C20 1]).Ready ∧ (start [.issue 0x2C20 1]).pending = .issue 0x2C20 1 :: []
      ∧ (0x2C20#16).toNat / 2048 = 0x05 ∧ 33 ≤ (0x2C20#16).toNat / 32 % 64)
    ∧ (0x281F#16).toNat / 2048 = 0x05 ∧ (0x281F#16).toNat / 32 % 64 = 0 := by decide

theorem witness_StepRunsTheDecodedCommand :
    (start [.issue 0x2965 7]).Ready ∧ (start [.issue 0x2965 7]).pending = .issue 0x2965 7 :: []
      ∧ decode 0x2965 7 = .ok (.extr 5 11 7) := ⟨by decide, rfl, rfl⟩

theorem witness_OnlyAcceptedCommandsAdvanceThePosition :
    ((start [.issue 0x0800 0]).Ready ∧ (start [.issue 0x0800 0]).pending = .issue 0x0800 0 :: []
      ∧ ∃ t, step (start [.issue 0x0800 0]) = .next t)
    ∧ (∀ cmd arg rest, (start [.reset]).pending ≠ .issue cmd arg :: rest) ∧ ∃ t, step (start [.reset]) = .next t :=
  ⟨⟨by decide, rfl, _, rfl⟩, by simp [start], _, rfl⟩

theorem witness_BusyCoreHoldsThePosition :
    ({ busyWith 1 with pending := [.issue 0x0800 0] } : State).cmdReady = false
      ∧ (∃ t, step { busyWith 1 with pending := [.issue 0x0800 0] } = .next t)
      ∧ (∃ t, clockEdge (offerInput 0x0800 0) (busyWith 1) = .next t)
      ∧ ∃ t, clockEdge (offerInput 0x0800 0) (start []) = .next t :=
  ⟨by decide, ⟨_, rfl⟩, ⟨_, rfl⟩, _, rfl⟩

theorem witness_HostReadDeliversOrFaults :
    ((start [.readRsp]).unmarked = true ∧ (start [.readRsp]).pending = .readRsp :: []
      ∧ (start [.readRsp]).rspValid = false)
    ∧ ({ start [.readRsp] with rspValid := true } : State).unmarked = true
    ∧ ({ start [.readRsp] with rspValid := true } : State).rspValid = true := by decide

theorem witness_IdleCoreStaysAsItIs :
    (start []).Ready ∧ (start []).pending = [] ∧ quietInput.rst = false ∧ quietInput.cmdValid = false := by decide

theorem witness_MarksArePermanent :
    (step (start [.issue 0x3000 0]) = .refused .reservedOpcode ∧ step (start [.readRsp]) = .fault .unwrittenResult)
      ∧ ({ start [] with refusedMark := some .widePayload } : State).refusedMark = some .widePayload
      ∧ (({ start [] with faultRecord := some .unwrittenResult } : State).refusedMark = none
        ∧ ({ start [] with faultRecord := some .unwrittenResult } : State).faultRecord = some .unwrittenResult)
      ∧ (start []).Ready ∧ step { start [] with pending := .issue 0x2000 0x800 :: (start []).pending }
        = .refused .widePayload :=
  ⟨⟨rfl, rfl⟩, rfl, ⟨rfl, rfl⟩, by decide, rfl⟩

theorem witness_BadLayoutIsRefusedBeforeAnyStep :
    ¬ (edgeTable 32 0xF).MeetsR101 ∧ ¬ (edgeTable 31 0x7).MeetsR101 ∧ (edgeTable 31 0xF).MeetsR101 := by decide

theorem witness_EveryStepKeepsTheMachineInvariant :
    (start [.issue 0x0800 0, .readRsp]).Inv lTest 1 ∧ ∃ t, step (start [.issue 0x0800 0, .readRsp]) = .next t :=
  ⟨by decide, _, rfl⟩

theorem witness_ClockInvariant :
    (busyWith 2).ClockInv lTest ∧ ∃ t, clockEdge quietInput (busyWith 2) = .next t :=
  ⟨⟨by decide, rfl, fun f h => by cases h; exact ⟨.c5 0x1BA, rfl, by decide⟩⟩, _, rfl⟩

theorem witness_ClockedRunIsTheAtomicStep :
    (start []).Ready
      ∧ (List.replicate (Config.latency (opField 0x2000)) quietInput).length = Config.latency (opField 0x2000)
      ∧ ∀ inp ∈ List.replicate (Config.latency (opField 0x2000)) quietInput, inp.rst = false :=
  ⟨by decide, List.length_replicate, fun inp h => by rw [List.eq_of_mem_replicate h]; rfl⟩

theorem witness_AcceptedCommandsCompleteInTime :
    (busyWith 2).unmarked = true ∧ (busyWith 2).inFlight = some { cmd := 0x2000, arg := 0x1BA, left := 2 }
      ∧ decode 0x2000 0x1BA = .ok (.c5 0x1BA) ∧ (Instr.c5 0x1BA).accepted = true
      ∧ [quietInput, offerInput 0x1800 0].length = max 2 1
      ∧ ∀ inp ∈ [quietInput, offerInput 0x1800 0], inp.rst = false :=
  ⟨by decide, rfl, rfl, by decide, by decide, by decide⟩

theorem witness_BusyCoreShowsTheOldResult :
    ((start []).Ready ∧ decode 0x2000 0x1BA = .ok (.c5 0x1BA) ∧ (Instr.c5 0x1BA).accepted = true
      ∧ ([] : List PortIn).length < Config.latency (opField 0x2000) ∧ ∀ inp ∈ ([] : List PortIn), inp.rst = false)
    ∧ (busyWith 2).unmarked = true ∧ (busyWith 2).inFlight = some { cmd := 0x2000, arg := 0x1BA, left := 2 }
      ∧ [offerInput 0x1800 0].length < 2 ∧ ∀ inp ∈ [offerInput 0x1800 0], inp.rst = false :=
  ⟨⟨by decide, rfl, by decide, Nat.succ_pos _, by decide⟩, by decide, rfl, by decide, by decide⟩

theorem witness_ResetAbandonsTheCommandInProgress :
    (start []).Ready ∧ decode 0x2000 0x1BA = .ok (.c5 0x1BA) ∧ (Instr.c5 0x1BA).accepted = true
      ∧ ([] : List PortIn).length < Config.latency (opField 0x2000)
      ∧ (∀ inp ∈ ([] : List PortIn), inp.rst = false) ∧ resetInput.rst = true :=
  ⟨by decide, rfl, by decide, Nat.succ_pos _, by decide, rfl⟩

theorem witness_AssemblerNeverEmitsARefusedCommand :
    assemble lTest ['n', 'o', 'p'] = some [.nop] ∧ Instr.nop ∈ [Instr.nop] := by decide

theorem witness_PseudoInstructionsMeanTheirExpansions :
    extrfPseudo lTest .token 0x29BA1 = some (.extr 4 16 0x29BA1) := by decide

end Sys2Proof.Tests
end

/-! ## State: the rules of single commands, steps and clock edges (10_state.md) -/

namespace Sys2Proof.Machine

/-! ### Flags and single commands -/

theorem unmarked_iff (s : State) : s.unmarked = true ↔ s.Good := by
  simp [State.unmarked, State.Good]

theorem cmdReady_iff (s : State) : s.cmdReady = true ↔ s.inFlight = none := by
  simp [State.cmdReady, State.busy]

theorem cmdReady_eq_false_iff (s : State) : s.cmdReady = false ↔ ∃ f, s.inFlight = some f := by
  simp [State.cmdReady, State.busy, Option.isSome_iff_exists]

/-- A performed command either delivers a result, which may run CRC5U, or writes ACC16 at most (10_state.md R22, R23). -/
theorem exec_next_cases {i : Instr} {s t : State} (h : exec i s = .next t) :
    (i.producesResult = true ∧ ∃ v r n, t = { s with rsp := v, rspValid := true, c5 := r, draws := n }) ∨
      (i.producesResult = false ∧ ∃ a, t = { s with acc16 := a } ∧ (i.isCrc16 = false → a = s.acc16)) := by
  cases i with
  | nop => cases h; exact .inr ⟨rfl, _, rfl, fun _ => rfl⟩
  | c16init => cases h; exact .inr ⟨rfl, _, rfl, nofun⟩
  | c16byte arg => cases h; exact .inr ⟨rfl, _, rfl, nofun⟩
  | c5 arg =>
    simp only [exec, execC5] at h
    split at h
    · cases h; exact .inl ⟨rfl, _, _, _, rfl⟩
    · cases h
  | extr o w arg =>
    simp only [exec, execExtr] at h
    split at h
    · cases h; exact .inl ⟨rfl, _, _, _, rfl⟩
    · cases h
  | _ => cases h; exact .inl ⟨rfl, _, _, _, rfl⟩

/-- A command that answers a next state is one the core accepts (60_exceptions.md R133). -/
theorem exec_next_accepted {i : Instr} {s t : State} (h : exec i s = .next t) : i.accepted = true := by
  cases i with
  | c5 arg =>
    simp only [exec, execC5] at h
    split at h
    · assumption
    · cases h
  | extr o w arg =>
    simp only [exec, execExtr] at h
    split at h
    · assumption
    · cases h
  | _ => rfl

/-- No command clears RSP_VALID (10_state.md R23). -/
theorem exec_next_rspValid {i : Instr} {s t : State} (h : exec i s = .next t) (hv : s.rspValid = true) :
    t.rspValid = true := by
  obtain ⟨-, v, r, n, rfl⟩ | ⟨-, a, rfl, -⟩ := exec_next_cases h
  · rfl
  · exact hv

/-- A command outside CRC16U keeps ACC16 (10_state.md R22). -/
theorem exec_next_acc16 {i : Instr} {s t : State} (hi : i.isCrc16 = false) (h : exec i s = .next t) :
    t.acc16 = s.acc16 := by
  obtain ⟨-, v, r, n, rfl⟩ | ⟨-, a, rfl, ha⟩ := exec_next_cases h
  · rfl
  · exact ha hi

/-- A command outside CRC16U does not depend on ACC16: another value passes through it (10_state.md R22). -/
theorem exec_with_acc16 {i : Instr} (hi : i.isCrc16 = false) (s : State) (a : Half) :
    exec i { s with acc16 := a } = mapNext (fun t => { t with acc16 := a }) (exec i s) := by
  cases i with
  | c16init => cases hi
  | c16byte arg => cases hi
  | c16fin => cases hi
  | c5 arg =>
    simp only [exec, execC5]
    split <;> rfl
  | extr o w arg =>
    simp only [exec, execExtr]
    split <;> rfl
  | _ => rfl

/-- The byte C16BYTE feeds is the truncated operand (40_crc16.md R82). -/
theorem byteOperand_eq_setWidth (arg : Word) : byteOperand arg = arg.setWidth 8 :=
  (BitVec.setWidth_eq_extractLsb' (by decide)).symm

/-! ### Completion -/

/-- Completion writes the core's registers at most and leaves BUSY = 0; LAYOUT, the marks and the host's side stay. -/
theorem complete_next_shape {s t : State} (h : complete s = .next t) :
    ∃ a v b r n, t = { s with acc16 := a, rsp := v, rspValid := b, inFlight := none, c5 := r, draws := n } := by
  obtain ⟨hf, rfl⟩ | ⟨f, i, u, -, -, hu, rfl⟩ := complete_next_cases h
  · exact ⟨t.acc16, t.rsp, t.rspValid, t.c5, t.draws, by rw [← hf]⟩
  · obtain ⟨a, v, b, r, n, rfl⟩ := exec_next_shape hu
    exact ⟨a, v, b, r, n, rfl⟩

theorem complete_next_rspValid {s t : State} (h : complete s = .next t) (hv : s.rspValid = true) :
    t.rspValid = true := by
  obtain ⟨-, rfl⟩ | ⟨f, i, u, -, -, hu, rfl⟩ := complete_next_cases h
  · exact hv
  · rw [release_rspValid]
    exact exec_next_rspValid hu hv

/-- What completes is a command in the sense of the decoder, and the core performs it. -/
theorem complete_accept_next_accepted {cmd : CmdWord} {arg : Word} {s t : State}
    (h : complete (accept cmd arg s) = .next t) : ∃ i, decode cmd arg = .ok i ∧ i.accepted = true := by
  obtain ⟨hf, -⟩ | ⟨f, i, u, hf, hi, hu, -⟩ := complete_next_cases h
  · cases hf
  · cases hf
    exact ⟨i, hi, exec_next_accepted hu⟩

/-! ### One step -/

/-- Every step, of a busy core too, answers an unmarked state with the same LAYOUT, and each command it takes off the
host's list counts in the position. -/
theorem step_next_frame {s t : State} (h : step s = .next t) :
    t.Good ∧ t.layout = s.layout ∧ t.position + issuesIn t.pending = s.position + issuesIn s.pending := by
  obtain ⟨hr, hf, ⟨-, hc⟩ | ⟨cmd, arg, rest, hp, -, hc⟩ | ⟨cmd, arg, rest, -, -, hc⟩ | ⟨rest, hp, -, rfl⟩ |
    ⟨rest, hp, rfl⟩⟩ := step_next_cases h
  · obtain ⟨a, v, b, r, n, rfl⟩ := complete_next_shape hc
    exact ⟨⟨hr, hf⟩, rfl, rfl⟩
  · obtain ⟨a, v, b, r, n, rfl⟩ := complete_next_shape hc
    refine ⟨⟨hr, hf⟩, rfl, ?_⟩
    simp only [hp, issuesIn, accept_position, accept_pending]
    omega
  · obtain ⟨a, v, b, r, n, rfl⟩ := complete_next_shape hc
    exact ⟨⟨hr, hf⟩, rfl, rfl⟩
  · exact ⟨⟨hr, hf⟩, rfl, by simp only [hp, issuesIn]⟩
  · exact ⟨⟨hr, hf⟩, rfl, by simp only [hp, issuesIn, resetCore_position, resetCore_pending]⟩

/-- A step from BUSY = 0 ends with BUSY = 0: the timeless model takes a command in one step (10_state.md R24). -/
theorem step_next_idle {s t : State} (hs : s.inFlight = none) (h : step s = .next t) : t.inFlight = none := by
  obtain ⟨-, -, ⟨-, hc⟩ | ⟨cmd, arg, rest, -, -, hc⟩ | ⟨cmd, arg, rest, -, -, hc⟩ | ⟨rest, -, -, rfl⟩ |
    ⟨rest, -, rfl⟩⟩ := step_next_cases h
  · exact complete_next_idle hc
  · exact complete_next_idle hc
  · exact complete_next_idle hc
  · exact hs
  · rfl

theorem step_keeps_inv {l : Layout} {n : Nat} {s t : State} (hs : s.Inv l n) (h : step s = .next t) : t.Inv l n := by
  obtain ⟨⟨hready, -⟩, rfl, rfl⟩ := hs
  obtain ⟨hgood, hlayout, hcount⟩ := step_next_frame h
  have hidle : t.inFlight = none := step_next_idle ((cmdReady_iff s).1 hready) h
  exact ⟨⟨(cmdReady_iff t).2 hidle, (unmarked_iff t).2 hgood⟩, hlayout, hcount⟩

/-- A ready core takes the issued command and performs it in the same step (30_encoding.md R61). -/
theorem step_issue_of_ready {s : State} {cmd : CmdWord} {arg : Word} {rest : List HostAction} (hs : s.Ready)
    (hp : s.pending = .issue cmd arg :: rest) :
    step s = complete (accept cmd arg { s with pending := rest }) := by
  obtain ⟨hready, hunmarked⟩ := hs
  obtain ⟨hr, hf⟩ := (unmarked_iff s).1 hunmarked
  simp [step, takeStep, hostActs, hostIssues, hr, hf, hp, hready]

/-- A busy core accepts nothing: the command in progress completes and the host holds its own (30_encoding.md R60). -/
theorem step_issue_of_busy {s t : State} {cmd : CmdWord} {arg : Word} {rest : List HostAction}
    (hs : s.cmdReady = false) (hp : s.pending = .issue cmd arg :: rest) (h : step s = .next t) :
    complete s = .next t := by
  obtain ⟨-, -, ⟨-, hc⟩ | ⟨_, _, _, -, hready, -⟩ | ⟨_, _, _, -, -, hc⟩ | ⟨_, hp', -⟩ | ⟨_, hp', -⟩⟩ :=
    step_next_cases h
  · exact hc
  · rw [hs] at hready; cases hready
  · exact hc
  · rw [hp] at hp'; cases hp'
  · rw [hp] at hp'; cases hp'

/-! ### One clock edge -/

theorem clockEdge_next_frame {inp : PortIn} {s t : State} (h : clockEdge inp s = .next t) :
    t.Good ∧ t.layout = s.layout := by
  obtain ⟨hr, hf, ⟨-, rfl⟩ | ⟨-, f, -, ⟨-, hc⟩ | ⟨-, rfl⟩⟩ | ⟨-, -, -, ha⟩ | ⟨-, -, -, rfl⟩⟩ :=
    clockEdge_next_cases h
  · exact ⟨⟨hr, hf⟩, rfl⟩
  · obtain ⟨a, v, b, r, n, rfl⟩ := complete_next_shape hc
    exact ⟨⟨hr, hf⟩, rfl⟩
  · exact ⟨⟨hr, hf⟩, rfl⟩
  · obtain ⟨rfl, -⟩ := acceptEdge_next_cases ha
    exact ⟨⟨hr, hf⟩, rfl⟩
  · exact ⟨⟨hr, hf⟩, rfl⟩

/-- A command in progress after an edge was in progress before it, or was accepted at it because the core performs it
(log entry 20). -/
theorem clockEdge_next_inFlight {inp : PortIn} {s t : State} (h : clockEdge inp s = .next t) {f : Flight}
    (hf : t.inFlight = some f) :
    (∃ g, s.inFlight = some g ∧ f.cmd = g.cmd ∧ f.arg = g.arg) ∨
      ∃ i, decode f.cmd f.arg = .ok i ∧ i.accepted = true := by
  obtain ⟨-, -, ⟨-, rfl⟩ | ⟨-, g, hg, ⟨-, hc⟩ | ⟨-, rfl⟩⟩ | ⟨-, -, -, ha⟩ | ⟨-, hnone, -, rfl⟩⟩ :=
    clockEdge_next_cases h
  · cases hf
  · rw [complete_next_idle hc] at hf; cases hf
  · cases hf
    exact .inl ⟨g, hg, rfl, rfl⟩
  · obtain ⟨rfl, u, hu⟩ := acceptEdge_next_cases ha
    cases hf
    exact .inr (complete_accept_next_accepted hu)
  · rw [hnone] at hf; cases hf

theorem clockEdge_keeps_clockInv {l : Layout} {inp : PortIn} {s t : State} (hs : s.ClockInv l)
    (h : clockEdge inp s = .next t) : t.ClockInv l := by
  obtain ⟨-, rfl, hflight⟩ := hs
  obtain ⟨hgood, hlayout⟩ := clockEdge_next_frame h
  refine ⟨(unmarked_iff t).2 hgood, hlayout, fun f hf => ?_⟩
  obtain ⟨g, hg, hcmd, harg⟩ | haccepted := clockEdge_next_inFlight h hf
  · rw [hcmd, harg]
    exact hflight g hg
  · exact haccepted

theorem clockEdge_next_rspValid {inp : PortIn} {s t : State} (h : clockEdge inp s = .next t) (hrst : inp.rst = false)
    (hv : s.rspValid = true) : t.rspValid = true := by
  obtain ⟨-, -, ⟨hrst', -⟩ | ⟨-, f, -, ⟨-, hc⟩ | ⟨-, rfl⟩⟩ | ⟨-, -, -, ha⟩ | ⟨-, -, -, rfl⟩⟩ :=
    clockEdge_next_cases h
  · rw [hrst] at hrst'; cases hrst'
  · exact complete_next_rspValid hc hv
  · exact hv
  · obtain ⟨rfl, -⟩ := acceptEdge_next_cases ha
    exact hv
  · exact hv

theorem clockEdge_next_position {inp : PortIn} {s t : State} (h : clockEdge inp s = .next t) :
    t.position = if inp.rst = false ∧ inp.cmdValid = true ∧ s.cmdReady = true then s.position + 1 else s.position := by
  obtain ⟨-, -, ⟨hrst, rfl⟩ | ⟨-, f, hf, hbusy⟩ | ⟨hrst, hnone, hvalid, ha⟩ | ⟨-, -, hvalid, rfl⟩⟩ :=
    clockEdge_next_cases h
  · simp [hrst]
  · have hready : s.cmdReady = false := (cmdReady_eq_false_iff s).2 ⟨f, hf⟩
    obtain ⟨-, hc⟩ | ⟨-, rfl⟩ := hbusy
    · obtain ⟨a, v, b, r, n, rfl⟩ := complete_next_shape hc
      simp [hready]
    · simp [hready]
  · obtain ⟨rfl, -⟩ := acceptEdge_next_cases ha
    simp [hrst, hvalid, (cmdReady_iff s).2 hnone]
  · simp [hvalid]

/-- On a ready core an edge at which the host offers a command is the accepting edge (30_encoding.md R60). -/
theorem clockEdge_offer_of_ready {s : State} (hs : s.Ready) (cmd : CmdWord) (arg : Word) :
    clockEdge (offerInput cmd arg) s = acceptEdge cmd arg s := by
  obtain ⟨hready, hunmarked⟩ := hs
  obtain ⟨hr, hf⟩ := (unmarked_iff s).1 hunmarked
  simp [clockEdge, liveEdge, idleEdge, offerInput, hr, hf, (cmdReady_iff s).1 hready]

/-! ### Recorded marks -/

theorem advance_of_refused {s : State} {r : Refusal} (h : step s = .refused r) :
    advance s = { s with refusedMark := some r } := by
  rw [step] at h
  simp [advance, h]

theorem advance_of_fault {s : State} {r : Fault} (h : step s = .fault r) :
    advance s = { s with faultRecord := some r } := by
  rw [step] at h
  simp [advance, h]

theorem advanceN_of_fixed {s : State} (h : advance s = s) (k : Nat) : advanceN k s = s := by
  induction k with
  | zero => rfl
  | succ k ih => rw [advanceN, h, ih]

/-- A step that faults carries no REFUSED mark, which would have been answered first. -/
theorem refusedMark_eq_none_of_step_fault {s : State} {r : Fault} (h : step s = .fault r) : s.refusedMark = none := by
  cases hr : s.refusedMark with
  | none => rfl
  | some r' => rw [step_of_refusedMark hr] at h; cases h

theorem advanceN_succ_of_refused {s : State} {r : Refusal} (h : step s = .refused r) (k : Nat) :
    advanceN (k + 1) s = { s with refusedMark := some r } := by
  rw [advanceN, advance_of_refused h]
  exact advanceN_of_fixed (advance_of_refused (step_of_refusedMark rfl)) k

theorem advanceN_succ_of_fault {s : State} {r : Fault} (h : step s = .fault r) (k : Nat) :
    advanceN (k + 1) s = { s with faultRecord := some r } := by
  have hnone : s.refusedMark = none := refusedMark_eq_none_of_step_fault h
  rw [advanceN, advance_of_fault h]
  exact advanceN_of_fixed (s := { s with faultRecord := some r }) (advance_of_fault (step_of_faultRecord hnone rfl)) k

/-! ### The ROM T -/

/-- A reflected step adds the polynomial exactly when the bit shifted out is 1, and so is linear. -/
theorem crcBitStep_xor (a b : Half) :
    crcBitSteps 1 (a ^^^ b) = crcBitSteps 1 a ^^^ crcBitSteps 1 b := by
  simp only [crcBitSteps, BitVec.getLsbD_xor, BitVec.ushiftRight_xor_distrib]
  cases a.getLsbD 0 <;> cases b.getLsbD 0
  case false.false => rfl
  case false.true => exact BitVec.xor_assoc ..
  case true.false => simp only [Bool.true_bne, Bool.not_false, if_true, Bool.false_eq_true, if_false]; ac_rfl
  case true.true =>
    have hcancel (x y p : Half) : x ^^^ y = (x ^^^ p) ^^^ (y ^^^ p) := by
      rw [BitVec.xor_comm y p, ← BitVec.xor_assoc, BitVec.xor_assoc x, BitVec.xor_self, BitVec.xor_zero]
    exact hcancel ..

theorem crcBitSteps_xor (k : Nat) (a b : Half) : crcBitSteps k (a ^^^ b) = crcBitSteps k a ^^^ crcBitSteps k b := by
  induction k generalizing a b with
  | zero => rfl
  | succ k ih =>
    have hsucc (c : Half) : crcBitSteps (k + 1) c = crcBitSteps k (crcBitSteps 1 c) := rfl
    rw [hsucc, hsucc, hsucc, crcBitStep_xor, ih]

/-- The 256 hard-coded entries, checked one by one (10_state.md R26, R27). -/
theorem crcTable_eq_generatedEntry : ∀ i : Byte, crcTable i = generatedEntry i := by
  decide +kernel

theorem crcTable_xor (a b : Byte) : crcTable (a ^^^ b) = crcTable a ^^^ crcTable b := by
  simp only [crcTable_eq_generatedEntry, generatedEntry, BitVec.setWidth_xor, crcBitSteps_xor]

/-- The byte step of 40_crc16.md R82 is linear in accumulator and byte together, as the table is. -/
theorem crcByte_xor (a b : Half) (c d : Byte) : crcByte (a ^^^ b) (c ^^^ d) = crcByte a c ^^^ crcByte b d := by
  have hindex : (a ^^^ b) ^^^ (c ^^^ d).setWidth 16 = (a ^^^ c.setWidth 16) ^^^ (b ^^^ d.setWidth 16) := by
    rw [BitVec.setWidth_xor]; ac_rfl
  simp only [crcByte, hindex, BitVec.extractLsb'_xor, crcTable_xor, BitVec.ushiftRight_xor_distrib]
  ac_rfl

/-! ### The statements -/

/-- Settles O53: the marks, LAYOUT and the accounting by what a step leaves (`step_next_frame`), BUSY = 0 by completion;
at a clock edge a new command in progress is one whose completion answered a next state. -/
theorem everyStepKeepsTheMachineInvariant : Obligations.EveryStepKeepsTheMachineInvariant :=
  ⟨fun _ _ _ _ hs h => step_keeps_inv hs h, fun _ _ _ _ hs h => clockEdge_keeps_clockInv hs h⟩

/-- Settles O25: the entries by checking the table, the linearity of the table from that of the generating steps. -/
theorem romIsTheGeneratedTable : Obligations.RomIsTheGeneratedTable :=
  ⟨crcTable_eq_generatedEntry, rfl, rfl, rfl, crcTable_xor, crcByte_xor⟩

/-- Settles O30: the CRC16U commands by their definitions, the others by `exec_with_acc16` and `exec_next_acc16`. -/
theorem onlyCrc16CommandsTouchTheAccumulator : Obligations.OnlyCrc16CommandsTouchTheAccumulator := by
  refine ⟨rfl, fun _ => rfl, fun arg s => ?_, fun _ => rfl, fun i s a hi => ?_⟩
  · rw [← byteOperand_eq_setWidth]
    rfl
  · exact ⟨exec_with_acc16 hi s a, fun t h => exec_next_acc16 hi h⟩

/-- Settles O36, by the two things a performed command can do (`exec_next_cases`). -/
theorem onlyResultCommandsWriteRsp : Obligations.OnlyResultCommandsWriteRsp := by
  refine ⟨fun i s t hi h => ?_, fun i s t hi h => ?_, rfl⟩
  · obtain ⟨-, v, r, n, rfl⟩ | ⟨hi', -⟩ := exec_next_cases h
    · rfl
    · rw [hi] at hi'; cases hi'
  · obtain ⟨hi', -⟩ | ⟨-, a, rfl, -⟩ := exec_next_cases h
    · rw [hi] at hi'; cases hi'
    · exact ⟨rfl, rfl⟩

/-- Settles O37: completion keeps RSP_VALID = 1, and a host read does not change the core. -/
theorem onlyResetClearsRspValid : Obligations.OnlyResetClearsRspValid := by
  refine ⟨fun s t h hv hnoReset => ?_, fun inp s t h hv hrst => clockEdge_next_rspValid h hrst hv⟩
  obtain ⟨-, -, ⟨-, hc⟩ | ⟨cmd, arg, rest, -, -, hc⟩ | ⟨cmd, arg, rest, -, -, hc⟩ | ⟨rest, -, -, rfl⟩ |
    ⟨rest, hp, -⟩⟩ := step_next_cases h
  · exact complete_next_rspValid hc hv
  · exact complete_next_rspValid hc hv
  · exact complete_next_rspValid hc hv
  · exact hv
  · exact absurd hp (hnoReset rest)

/-- Settles O48: acceptance is the one operation that writes the position, and completion leaves it. -/
theorem onlyAcceptedCommandsAdvanceThePosition : Obligations.OnlyAcceptedCommandsAdvanceThePosition := by
  refine ⟨fun s t cmd arg rest hs hp h => ?_, fun s t hno h => ?_, fun s t cmd arg rest hs hp h => ?_,
    fun inp s t h => clockEdge_next_position h⟩
  · rw [step_issue_of_ready hs hp] at h
    obtain ⟨a, v, b, r, n, rfl⟩ := complete_next_shape h
    rfl
  · obtain ⟨-, -, ⟨-, hc⟩ | ⟨cmd, arg, rest, hp, -⟩ | ⟨cmd, arg, rest, hp, -⟩ | ⟨rest, -, -, rfl⟩ |
      ⟨rest, -, rfl⟩⟩ := step_next_cases h
    · obtain ⟨a, v, b, r, n, rfl⟩ := complete_next_shape hc
      rfl
    · exact absurd hp (hno cmd arg rest)
    · exact absurd hp (hno cmd arg rest)
    · rfl
    · rfl
  · obtain ⟨a, v, b, r, n, rfl⟩ := complete_next_shape (step_issue_of_busy hs hp h)
    exact ⟨rfl, rfl⟩

/-- Settles O51: a recorded mark is a fixed point of `advance`, and the accepting edge refuses what the step refuses. -/
theorem marksArePermanent : Obligations.MarksArePermanent := by
  refine ⟨fun s r k h => advanceN_succ_of_refused h k, fun s r k h => advanceN_succ_of_fault h k,
    fun s r inp hr => ⟨step_of_refusedMark hr, clockEdge_of_refusedMark hr⟩,
    fun s r inp hnone hf => ⟨step_of_faultRecord hnone hf, clockEdge_of_faultRecord hnone hf⟩,
    fun s cmd arg r ins hs h => ?_⟩
  have hcomplete : complete (accept cmd arg s) = .refused r := by
    rw [← h]
    exact (step_issue_of_ready (s := { s with pending := .issue cmd arg :: s.pending }) hs rfl).symm
  rw [clockRun, clockEdge_offer_of_ready hs, acceptEdge_refused hcomplete]

/-- Settles O1, by the fields of the reset state. -/
theorem resetLeavesTheStatedValues : Obligations.ResetLeavesTheStatedValues :=
  ⟨rfl, rfl, rfl, rfl, rfl⟩

end Sys2Proof.Machine

/-! ## Memory: the stream's order, frames and residues (20_memory.md) -/

namespace Sys2Proof.Machine

/-! ### Sequences of commands -/

theorem execAll_cons_of_next {i : Instr} {s t : State} (h : exec i s = .next t) (is : List Instr) :
    execAll (i :: is) s = execAll is t := by
  rw [execAll, h]

/-- A sequence that is performed to its end is its first command performed, then the rest. -/
theorem execAll_cons_next {i : Instr} {is : List Instr} {s t : State} (h : execAll (i :: is) s = .next t) :
    ∃ u, exec i s = .next u ∧ execAll is u = .next t := by
  cases hi : exec i s with
  | next u => exact ⟨u, rfl, by rw [← execAll_cons_of_next hi, h]⟩
  | fault r => rw [execAll, hi] at h; cases h
  | refused r => rw [execAll, hi] at h; cases h

theorem execAll_append_of_next {is : List Instr} {s t : State} (h : execAll is s = .next t) (js : List Instr) :
    execAll (is ++ js) s = execAll js t := by
  induction is generalizing s with
  | nil => cases h; rfl
  | cons i is ih =>
    obtain ⟨u, hu, hrest⟩ := execAll_cons_next h
    rw [List.cons_append, execAll_cons_of_next hu, ih hrest]

/-! ### Commands outside CRC16U -/

/-- All that a command outside CRC16U does: it runs CRC5U or not, and delivers a result or none (20_memory.md R51). -/
def pureEffect (runs : Bool) (v : Option Word) (s : State) : State :=
  { bif runs then releaseC5 s else s with rsp := v.getD s.rsp, rspValid := v.isSome || s.rspValid }

@[simp] theorem pureEffect_rsp (runs : Bool) (v : Option Word) (s : State) :
    (pureEffect runs v s).rsp = v.getD s.rsp := rfl

@[simp] theorem pureEffect_layout (runs : Bool) (v : Option Word) (s : State) :
    (pureEffect runs v s).layout = s.layout := by
  cases runs <;> rfl

/-- Two such effects in either order leave the same state but for RSP, which holds the later result. -/
theorem pureEffect_comm (runs runs' : Bool) (v v' : Option Word) (s : State) :
    { pureEffect runs v (pureEffect runs' v' s) with rsp := (pureEffect runs' v' (pureEffect runs v s)).rsp }
      = pureEffect runs' v' (pureEffect runs v s) := by
  cases runs <;> cases runs' <;> simp [pureEffect, Bool.or_left_comm]

/-- A command outside CRC16U reads LAYOUT at most: under one LAYOUT its effect, or its refusal, is the same
(20_memory.md R51). -/
theorem exec_of_same_layout {i : Instr} (hi : i.isCrc16 = false) {s s' : State} (hl : s.layout = s'.layout) :
    (∃ v, v.isSome = i.producesResult ∧ exec i s = .next (pureEffect i.runsCrc5 v s)
        ∧ exec i s' = .next (pureEffect i.runsCrc5 v s'))
      ∨ ∃ r, exec i s = .refused r ∧ exec i s' = .refused r := by
  cases i with
  | nop => exact .inl ⟨none, rfl, rfl, rfl⟩
  | c16init => cases hi
  | c16byte arg => cases hi
  | c16fin => cases hi
  | c5 arg =>
    simp only [exec, execC5]
    split
    · exact .inl ⟨some _, rfl, rfl, rfl⟩
    · exact .inr ⟨_, rfl, rfl⟩
  | extr o w arg =>
    simp only [exec, execExtr]
    split
    · exact .inl ⟨some _, rfl, rfl, rfl⟩
    · exact .inr ⟨_, rfl, rfl⟩
  | _ => exact .inl ⟨some _, rfl, rfl, by rw [hl]; rfl⟩

theorem exec_next_layout {i : Instr} {s t : State} (h : exec i s = .next t) : t.layout = s.layout := by
  obtain ⟨a, v, b, r, n, rfl⟩ := exec_next_shape h
  rfl

theorem exec_next_of_same_layout {i : Instr} (hi : i.isCrc16 = false) {s s' t : State} (hl : s.layout = s'.layout)
    (h : exec i s = .next t) :
    ∃ v, t = pureEffect i.runsCrc5 v s ∧ exec i s' = .next (pureEffect i.runsCrc5 v s') := by
  obtain ⟨v, -, hs, hs'⟩ | ⟨r, hs, -⟩ := exec_of_same_layout hi hl
  · rw [hs] at h
    cases h
    exact ⟨v, rfl, hs'⟩
  · rw [hs] at h; cases h

/-- Only the commands that run CRC5U change C5_* and the draw counter (10_state.md R25). -/
theorem exec_next_c5 {i : Instr} {s t : State} (hi : i.runsCrc5 = false) (h : exec i s = .next t) :
    t.c5 = s.c5 ∧ t.draws = s.draws := by
  cases i with
  | c5 arg => cases hi
  | xtcrc arg => cases hi
  | xscrc arg => cases hi
  | extr o w arg =>
    simp only [exec, execExtr] at h
    split at h
    · cases h; exact ⟨rfl, rfl⟩
    · cases h
  | _ => cases h; exact ⟨rfl, rfl⟩

/-! ### The CRC-16 residue -/

/-- C16BYTE is a byte step on the truncated operand (40_crc16.md R82). -/
theorem exec_c16byte (arg : Word) (s : State) :
    exec (.c16byte arg) s = .next { s with acc16 := crcByte s.acc16 (arg.setWidth 8) } := by
  rw [exec, execC16byte, setAcc_next, byteOperand_eq_setWidth]

/-- Bytes fed one after the other fold the byte step over ACC16 and leave the rest alone (40_crc16.md R82). -/
theorem execAll_c16byte (bytes : List Byte) (s : State) :
    execAll (bytes.map fun b => .c16byte (b.setWidth 32)) s
      = .next { s with acc16 := bytes.foldl crcByte s.acc16 } := by
  induction bytes generalizing s with
  | nil => rfl
  | cons b bytes ih =>
    have hb : exec (.c16byte (b.setWidth 32)) s = .next { s with acc16 := crcByte s.acc16 b } := by
      rw [exec_c16byte, BitVec.setWidth_setWidth_of_le _ (by decide), BitVec.setWidth_eq]
    rw [List.map_cons, execAll_cons_of_next hb, ih, List.foldl_cons]

/-- The pseudo-instruction `crc16` folds the byte step from the seed and delivers what C16FIN makes of it
(30_encoding.md R71). -/
theorem execAll_crc16Pseudo (bytes : List Byte) (s : State) :
    execAll (crc16Pseudo bytes) s = .next { s with
      acc16 := bytes.foldl crcByte crcSeed
      rsp := (crcOut (bytes.foldl crcByte crcSeed)).setWidth 32
      rspValid := true } := by
  rw [crc16Pseudo, execAll_cons_of_next (t := { s with acc16 := crcSeed }) rfl,
    execAll_append_of_next (execAll_c16byte bytes _)]
  rfl

/-- The low byte of the delivered CRC cancels the accumulator's low byte: the index is 0xFF, whatever the message. -/
theorem crcByte_crcOut_low (a : Half) : crcByte a ((crcOut a).setWidth 8) = (a >>> 8) ^^^ 0x4040#16 := by
  have hindex : (a ^^^ ((crcOut a).setWidth 8).setWidth 16).extractLsb' 0 8 = 0xFF#8 := by
    ext k hk
    interval_cases k <;> simp [crcOut]
  rw [crcByte, hindex]
  rfl

/-- The high byte then cancels what the shift brought down: the index is 0xFF ^ 0x40, and the residue remains
(20_memory.md R43). -/
theorem crcByte_crcOut_high (a : Half) :
    crcByte ((a >>> 8) ^^^ 0x4040#16) ((crcOut a).extractLsb' 8 8) = 0xB001#16 := by
  have hindex : ((a >>> 8) ^^^ 0x4040#16 ^^^ ((crcOut a).extractLsb' 8 8).setWidth 16).extractLsb' 0 8 = 0xBF#8 := by
    ext k hk
    interval_cases k <;> simp [crcOut]
  have hshift : ((a >>> 8) ^^^ 0x4040#16) >>> 8 = 0x0040#16 := by
    ext k hk
    interval_cases k <;> simp
  rw [crcByte, hindex, hshift]
  rfl

/-- A state whose RSP is the CRC of its ACC16 comes to the residue when the bytes of RSP are fed, the low one first
(20_memory.md R43). -/
theorem execAll_own_crc {s : State} (hs : s.rsp = (crcOut s.acc16).setWidth 32) :
    execAll [.c16byte (s.rsp &&& 0xFF#32), .c16byte (s.rsp >>> 8), .c16fin] s
      = .next { s with acc16 := 0xB001#16, rsp := 0x4FFE#32, rspValid := true } := by
  have hlow : (s.rsp &&& 0xFF#32).setWidth 8 = (crcOut s.acc16).setWidth 8 := by
    rw [hs, BitVec.setWidth_and, BitVec.setWidth_setWidth_of_le _ (by decide)]
    exact BitVec.and_allOnes
  have hhigh : (s.rsp >>> 8).setWidth 8 = (crcOut s.acc16).extractLsb' 8 8 := by
    ext k hk
    simp [hs, show 8 + k < 32 by omega]
  have hfin : (crcOut 0xB001#16).setWidth 32 = 0x4FFE#32 := by decide
  have hfirst : exec (.c16byte (s.rsp &&& 0xFF#32)) s = .next { s with acc16 := (s.acc16 >>> 8) ^^^ 0x4040#16 } := by
    rw [exec_c16byte, hlow, crcByte_crcOut_low]
  have hsecond : exec (.c16byte (s.rsp >>> 8)) { s with acc16 := (s.acc16 >>> 8) ^^^ 0x4040#16 }
      = .next { s with acc16 := 0xB001#16 } := by
    rw [exec_c16byte, hhigh, crcByte_crcOut_high]
  rw [execAll_cons_of_next hfirst, execAll_cons_of_next hsecond, ← hfin]
  rfl

/-! ### The CRC-5 residual -/

/-- One step of the reflected register on one bit (41_crc5.md R96). -/
def reflectedStep (r : BitVec 5) (b : Bool) : BitVec 5 :=
  if r.getLsbD 0 ^^ b then (r >>> 1) ^^^ 0x14#5 else r >>> 1

theorem reflectedSteps_succ {n : Nat} (bits : BitVec n) (k : Nat) :
    reflectedSteps bits (k + 1) = reflectedStep (reflectedSteps bits k) (bits.getLsbD k) := rfl

/-- The register after `k` steps depends on the first `k` bits only. -/
theorem reflectedSteps_congr {m n : Nat} {a : BitVec m} {b : BitVec n} (k : Nat)
    (h : ∀ j, j < k → a.getLsbD j = b.getLsbD j) : reflectedSteps a k = reflectedSteps b k := by
  induction k with
  | zero => rfl
  | succ k ih =>
    have hprefix : reflectedSteps a k = reflectedSteps b k := ih fun j hj => h j (by omega)
    rw [reflectedSteps_succ, reflectedSteps_succ, hprefix, h k (by omega)]

/-- The data word is the mirror of the zero-extended payload (41_crc5.md R91). -/
theorem mirrorPayload_eq_reverse (p : BitVec 11) : mirrorPayload p = (p.setWidth 16).reverse := by
  ext k hk
  rw [mirrorPayload, BitVec.getElem_append]
  interval_cases k <;> simp [BitVec.getElem_reverse, BitVec.getMsbD]

/-- Iteration `k` reads payload bit `k` at the top of C5_D (41_crc5.md R91, R92). -/
theorem msb_mirrorPayload_shiftLeft (p : BitVec 11) {k : Nat} (hk : k < 16) :
    (mirrorPayload p <<< k).msb = p.getLsbD k := by
  rw [mirrorPayload_eq_reverse, BitVec.msb_shiftLeft, BitVec.getMsbD_reverse, BitVec.getLsbD_setWidth,
    decide_eq_true hk, Bool.true_and]

/-- One iteration of CRC5U is one step of the reflected register, which stands mirrored in the top five bits of C5_C
(41_crc5.md R92, R96). -/
theorem c5Iterate_mirrored (r : BitVec 5) (d : BitVec 16) (n : BitVec 4) :
    c5Iterate { c := r.reverse ++ 0#11, d := d, n := n }
      = { c := (reflectedStep r d.msb).reverse ++ 0#11, d := d <<< 1, n := n + 1#4 } := by
  simp only [c5Iterate, C5Regs.mk.injEq, and_true]
  generalize d.msb = b
  revert r b
  decide

theorem c5Iterations_succ (k : Nat) (r : C5Regs) : c5Iterations (k + 1) r = c5Iterate (c5Iterations k r) := by
  induction k generalizing r with
  | zero => rfl
  | succ k ih => rw [c5Iterations, ih, ← c5Iterations]

/-- Along the run C5_C holds the mirrored reflected register above eleven zero bits (41_crc5.md R92, R96). -/
theorem c5Iterations_c5Load (p : BitVec 11) {k : Nat} (hk : k ≤ 16) :
    c5Iterations k (c5Load p)
      = { c := (reflectedSteps p k).reverse ++ 0#11, d := mirrorPayload p <<< k, n := BitVec.ofNat 4 k } := by
  induction k with
  | zero =>
    have hseed : (0x1F#5).reverse ++ 0#11 = 0xF800#16 := by decide
    rw [reflectedSteps, hseed, BitVec.shiftLeft_zero]
    rfl
  | succ k ih =>
    rw [c5Iterations_succ, ih (by omega), c5Iterate_mirrored, msb_mirrorPayload_shiftLeft p (by omega),
      reflectedSteps_succ, BitVec.shiftLeft_add, BitVec.ofNat_add]

/-- CRC5 is the reflected bit-serial form (41_crc5.md R96). -/
theorem crc5_eq_reflectedCrc5 (p : BitVec 11) : crc5 p = reflectedCrc5 p := by
  have hfinal : ∀ r : BitVec 5, (((r.reverse ++ 0#11) >>> 11).extractLsb' 0 5 ^^^ 0x1F#5).reverse = r ^^^ 0x1F#5 := by
    decide
  rw [crc5, c5Run, c5Iterations_c5Load p (by decide), c5Final, hfinal, reflectedCrc5]

/-- Five steps over the complement of the register's own bits bring any register to the residual (20_memory.md R44). -/
theorem reflectedSteps_own_complement (p : BitVec 11) :
    reflectedSteps ((reflectedSteps p 11 ^^^ 0x1F#5) ++ p) 16 = 0x06#5 := by
  have hbit (q : BitVec 5) (j : Nat) : (q ++ p).getLsbD (11 + j) = q.getLsbD j := by
    rw [BitVec.getLsbD_append, if_neg (by omega), Nat.add_sub_cancel_left]
  have hprefix (q : BitVec 5) : reflectedSteps (q ++ p) 11 = reflectedSteps p 11 :=
    reflectedSteps_congr 11 fun j hj => by rw [BitVec.getLsbD_append, if_pos hj]
  have hfive : ∀ r : BitVec 5,
      (List.range 5).foldl (fun r' j => reflectedStep r' ((r ^^^ 0x1F#5).getLsbD j)) r = 0x06#5 := by
    decide
  generalize hq : reflectedSteps p 11 ^^^ 0x1F#5 = q
  calc reflectedSteps (q ++ p) 16
      = (List.range 5).foldl (fun r j => reflectedStep r ((q ++ p).getLsbD (11 + j)))
          (reflectedSteps (q ++ p) 11) := rfl
    _ = 0x06#5 := by simp only [hbit, hprefix, ← hq, hfive]

/-! ### The statements -/

/-- Settles O39: what a next state of a command can look like (`exec_next_shape`), and C5_* by `exec_next_c5`. -/
theorem commandsLeaveTheRestAlone : Obligations.CommandsLeaveTheRestAlone := by
  intro i s t h
  have hc5 : i.runsCrc5 = false → t.c5 = s.c5 ∧ t.draws = s.draws := fun hi => exec_next_c5 hi h
  obtain ⟨a, v, b, r, n, rfl⟩ := exec_next_shape h
  exact ⟨rfl, rfl, rfl, rfl, rfl, rfl, rfl, hc5⟩

/-- Settles O24: the effect of such a command is fixed by LAYOUT, which it keeps, and two such effects commute. -/
theorem extractionsArePure : Obligations.ExtractionsArePure := by
  refine ⟨fun i s s' hi hl => ?_, fun i j s t hi hj h => ?_⟩
  · obtain ⟨v, hv, hs, hs'⟩ | hrefused := exec_of_same_layout hi hl
    · refine .inl ⟨_, _, hs, hs', fun hres => ?_⟩
      obtain ⟨w, rfl⟩ := Option.isSome_iff_exists.1 (hv.trans hres)
      simp only [pureEffect_rsp, Option.getD_some]
    · exact .inr hrefused
  · obtain ⟨u, hu, h⟩ := execAll_cons_next h
    obtain ⟨t', ht, h⟩ := execAll_cons_next h
    cases h
    have hlayout : u.layout = s.layout := exec_next_layout hu
    obtain ⟨w, rfl, hj⟩ := exec_next_of_same_layout hj hlayout ht
    obtain ⟨v, rfl, hi⟩ := exec_next_of_same_layout (s' := pureEffect j.runsCrc5 w s) hi (by simp) hu
    exact ⟨_, by rw [execAll_cons_of_next hj, execAll_cons_of_next hi, execAll], pureEffect_comm ..⟩

/-- Settles O29: after `crc16` RSP is the CRC of ACC16, and so its own two bytes bring ACC16 to the residue. -/
theorem ownCrcLeavesTheResidue : Obligations.OwnCrcLeavesTheResidue := fun bytes s =>
  ⟨_, execAll_crc16Pseudo bytes s, execAll_own_crc rfl⟩

/-- Settles O34: CRC5 is the complement of the reflected register, which the register's own five steps bring to 0x06. -/
theorem ownCrc5LeavesTheResidual : Obligations.OwnCrc5LeavesTheResidual := fun p => by
  rw [crc5_eq_reflectedCrc5, reflectedCrc5, reflectedSteps_own_complement]

end Sys2Proof.Machine

/-! ## Encoding: the decoder, the command port and the assembler (30_encoding.md) -/

namespace Sys2Proof.Machine

/-! ### The fields of a word -/

/-- A word put together from two fields is the one that has these fields (30_encoding.md R62). -/
theorem shiftLeft_or_eq_iff {m n : Nat} (a : BitVec m) (b : BitVec n) (x : BitVec (m + n)) :
    a.setWidth (m + n) <<< n ||| b.setWidth (m + n) = x ↔ x.extractLsb' n m = a ∧ x.extractLsb' 0 n = b := by
  constructor
  · rintro rfl
    constructor
    · ext k hk
      simp [hk, show n + k < m + n by omega]
    · ext k hk
      simp [hk, show k < m + n by omega]
  · rintro ⟨rfl, rfl⟩
    ext k hk
    by_cases hlow : k < n
    · simp [hlow, BitVec.getLsbD_eq_getElem hk]
    · simp [hlow, BitVec.getLsbD_eq_getElem hk, show k - n < m by omega, show n + (k - n) = k by omega]

theorem encodeCmd_eq_iff (i : Instr) (cmd : CmdWord) :
    encodeCmd i = cmd ↔ opField cmd = i.opcode ∧ lowField cmd = i.lowBits :=
  shiftLeft_or_eq_iff i.opcode i.lowBits cmd

/-- cmd[10:0] of an EXTR word is W above O (30_encoding.md R62). -/
theorem lowField_eq_extr_lowBits_iff (cmd : CmdWord) (o : BitVec 5) (w : BitVec 6) (arg : Word) :
    lowField cmd = (Instr.extr o w arg).lowBits ↔ widthField cmd = w ∧ offsetField cmd = o := by
  have hwidth : (lowField cmd).extractLsb' 5 6 = widthField cmd := by
    ext k hk
    simp [lowField, widthField]
  have hoffset : (lowField cmd).extractLsb' 0 5 = offsetField cmd := by
    ext k hk
    simp [lowField, offsetField]
  rw [eq_comm, ← hwidth, ← hoffset]
  exact shiftLeft_or_eq_iff w o (lowField cmd)

theorem opField_toNat (cmd : CmdWord) : (opField cmd).toNat = cmd.toNat / 2048 := by
  have := cmd.isLt
  simp only [opField, BitVec.extractLsb'_toNat, Nat.shiftRight_eq_div_pow]
  omega

theorem lowField_toNat (cmd : CmdWord) : (lowField cmd).toNat = cmd.toNat % 2048 := by
  simp only [lowField, BitVec.extractLsb'_toNat, Nat.shiftRight_zero]

theorem widthField_toNat (cmd : CmdWord) : (widthField cmd).toNat = cmd.toNat / 32 % 64 := by
  simp only [widthField, BitVec.extractLsb'_toNat, Nat.shiftRight_eq_div_pow]

/-! ### The decoder -/

/-- `arg` is an operand the command is issued with: its own, or any for a command that ignores it
(30_encoding.md R63). -/
def OperandOf (i : Instr) (arg : Word) : Prop := encodeArg i = arg ∨ i = .nop ∨ i = .c16init ∨ i = .c16fin

/-- The commands of format N are those with another opcode than EXTR's, and their cmd[10:0] is zero
(30_encoding.md R62). -/
theorem wellFormed_and_lowBits_of_formatN {i : Instr} (hi : i.opcode ≠ 0x05#5) :
    i.wellFormed = true ∧ i.lowBits = 0#11 := by
  cases i with
  | extr o w arg => exact absurd rfl hi
  | _ => exact ⟨rfl, rfl⟩

/-- One row of the opcode map: its command, or what the rows below it give. -/
theorem formatN_row {op code : BitVec 5} {arg : Word} {i j : Instr} {rest : Option Instr} (hcode : code = j.opcode)
    (harg : OperandOf j arg) (hrest : rest = some i → op = i.opcode ∧ OperandOf i arg) :
    (if op = code then some j else rest) = some i → op = i.opcode ∧ OperandOf i arg := by
  intro h
  obtain ⟨hop, hj⟩ | ⟨-, h⟩ := ite_eq_iff.1 h
  · cases hj
    exact ⟨hop.trans hcode, harg⟩
  · exact hrest h

theorem formatN_eq_some_iff {op : BitVec 5} {arg : Word} {i : Instr} (hop : op ≠ 0x05#5) :
    formatN op arg = some i ↔ op = i.opcode ∧ OperandOf i arg := by
  constructor
  · unfold formatN
    iterate 16 refine formatN_row rfl (by simp [OperandOf, encodeArg]) ?_
    exact nofun
  · rintro ⟨rfl, harg⟩
    cases i with
    | extr o w v => exact absurd rfl hop
    | nop => rfl
    | c16init => rfl
    | c16fin => rfl
    | _ => obtain rfl | ⟨⟨⟩⟩ | ⟨⟨⟩⟩ | ⟨⟨⟩⟩ := harg; rfl

theorem reservedOp_iff (op : BitVec 5) :
    reservedOp op = true ↔ op.toNat = 0x06 ∨ op.toNat = 0x07 ∨ 0x13 ≤ op.toNat := by
  simp [reservedOp, ← BitVec.toNat_inj, or_assoc]

theorem reservedOp_opcode (i : Instr) : reservedOp i.opcode = false := by
  cases i <;> rfl

theorem decode_of_reservedOp {cmd : CmdWord} (h : reservedOp (opField cmd) = true) (arg : Word) :
    decode cmd arg = .error .reservedOpcode := if_pos h

theorem decode_of_extrOp {cmd : CmdWord} (h : opField cmd = 0x05#5) (arg : Word) :
    decode cmd arg = if legalWidth (widthField cmd) then .ok (.extr (offsetField cmd) (widthField cmd) arg)
      else .error .extractWidth := by
  simp only [decode, h]
  rfl

theorem decode_of_lowField_ne {cmd : CmdWord} (hr : reservedOp (opField cmd) = false) (hop : opField cmd ≠ 0x05#5)
    (hlow : lowField cmd ≠ 0#11) (arg : Word) : decode cmd arg = .error .reservedField := by
  simp [decode, hr, hop, hlow]

theorem decode_eq_ok_iff_of_formatN {cmd : CmdWord} (hr : reservedOp (opField cmd) = false)
    (hop : opField cmd ≠ 0x05#5) (hlow : lowField cmd = 0#11) (arg : Word) (i : Instr) :
    decode cmd arg = .ok i ↔ opField cmd = i.opcode ∧ OperandOf i arg := by
  rw [← formatN_eq_some_iff hop]
  simp only [decode, hr, hop, hlow]
  cases formatN (opField cmd) arg <;> simp

/-- `cmd` and `arg` stand for `i`: it is well-formed, the word has its two fields, and the operand is one of it. -/
def ReadsAs (cmd : CmdWord) (arg : Word) (i : Instr) : Prop :=
  i.wellFormed = true ∧ (opField cmd = i.opcode ∧ lowField cmd = i.lowBits) ∧ OperandOf i arg

theorem decode_eq_ok_iff_of_extrOp {cmd : CmdWord} (hop : opField cmd = 0x05#5) (arg : Word) (i : Instr) :
    decode cmd arg = .ok i ↔ ReadsAs cmd arg i := by
  rw [decode_of_extrOp hop]
  constructor
  · intro h
    split at h
    · rename_i hw
      cases h
      exact ⟨hw, ⟨hop, (lowField_eq_extr_lowBits_iff ..).2 ⟨rfl, rfl⟩⟩, .inl rfl⟩
    · cases h
  · rintro ⟨hwf, ⟨h, hbits⟩, harg⟩
    rw [hop] at h
    cases i with
    | extr o w v =>
      obtain ⟨rfl, rfl⟩ := (lowField_eq_extr_lowBits_iff ..).1 hbits
      obtain rfl | ⟨⟨⟩⟩ | ⟨⟨⟩⟩ | ⟨⟨⟩⟩ := harg
      exact if_pos hwf
    | _ => cases h

/-- What the decoder accepts, and as what (30_encoding.md R69). -/
theorem decode_eq_ok_iff {cmd : CmdWord} {arg : Word} {i : Instr} : decode cmd arg = .ok i ↔ ReadsAs cmd arg i := by
  cases hr : reservedOp (opField cmd) with
  | true =>
    rw [decode_of_reservedOp hr]
    refine ⟨nofun, fun ⟨_, ⟨hop, _⟩, _⟩ => ?_⟩
    rw [hop, reservedOp_opcode] at hr
    cases hr
  | false =>
    by_cases hop : opField cmd = 0x05#5
    · exact decode_eq_ok_iff_of_extrOp hop arg i
    have hformatN (h : opField cmd = i.opcode) : i.wellFormed = true ∧ i.lowBits = 0#11 :=
      wellFormed_and_lowBits_of_formatN (h ▸ hop)
    by_cases hlow : lowField cmd = 0#11
    · rw [decode_eq_ok_iff_of_formatN hr hop hlow]
      refine ⟨fun ⟨h, harg⟩ => ?_, fun ⟨_, ⟨h, _⟩, harg⟩ => ⟨h, harg⟩⟩
      obtain ⟨hwf, hbits⟩ := hformatN h
      exact ⟨hwf, ⟨h, hlow.trans hbits.symm⟩, harg⟩
    · rw [decode_of_lowField_ne hr hop hlow]
      exact ⟨nofun, fun ⟨_, ⟨h, hbits⟩, _⟩ => absurd (hbits.trans (hformatN h).2) hlow⟩

theorem decode_encode {i : Instr} (hi : i.wellFormed = true) : decode (encodeCmd i) (encodeArg i) = .ok i :=
  decode_eq_ok_iff.2 ⟨hi, (encodeCmd_eq_iff i _).1 rfl, .inl rfl⟩

/-! ### An issued command -/

theorem complete_accept_of_ok {cmd : CmdWord} {arg : Word} {i : Instr} (hi : decode cmd arg = .ok i) (s : State) :
    complete (accept cmd arg s) = mapNext release (exec i (accept cmd arg s)) := by
  simp only [complete, accept_inFlight, hi]

theorem complete_accept_of_error {cmd : CmdWord} {arg : Word} {e : DecodeError} (he : decode cmd arg = .error e)
    (s : State) : complete (accept cmd arg s) = .refused (refusalOf e) := by
  simp only [complete, accept_inFlight, he]

/-- A ready core refuses an issued word that the decoder refuses (60_exceptions.md R133). -/
theorem step_issue_of_error {s : State} {cmd : CmdWord} {arg : Word} {rest : List HostAction} {e : DecodeError}
    (hs : s.Ready) (hp : s.pending = .issue cmd arg :: rest) (he : decode cmd arg = .error e) :
    step s = .refused (refusalOf e) := by
  rw [step_issue_of_ready hs hp, complete_accept_of_error he]

/-! ### The clocked port -/

theorem mapNext_mapNext (f g : State → State) (o : Host.Outcome State Fault Refusal) :
    mapNext g (mapNext f o) = mapNext (g ∘ f) o := by
  cases o <;> rfl

/-- No command reads or writes what is in progress: another value passes through it. -/
theorem exec_with_inFlight (i : Instr) (s : State) (f : Option Flight) :
    exec i { s with inFlight := f } = mapNext (fun t => { t with inFlight := f }) (exec i s) := by
  cases i with
  | c5 arg =>
    simp only [exec, execC5]
    split <;> rfl
  | extr o w arg =>
    simp only [exec, execExtr]
    split <;> rfl
  | _ => rfl

/-- Completion does not depend on how many cycles were left (00_scope.md R10). -/
theorem complete_with_left {s : State} {f : Flight} (hf : s.inFlight = some f) (n : Nat) :
    complete { s with inFlight := some { f with left := n } } = complete s := by
  simp only [complete, hf]
  cases decode f.cmd f.arg with
  | ok i => simp only [exec_with_inFlight, mapNext_mapNext]; rfl
  | error e => rfl

/-- An edge of a busy core without reset counts one cycle down, whatever the host offers (30_encoding.md R60). -/
theorem clockEdge_of_busy {inp : PortIn} {s : State} {f : Flight} (hs : s.Good) (hrst : inp.rst = false)
    (hf : s.inFlight = some f) : clockEdge inp s = flightEdge f s := by
  obtain ⟨hr, hfault⟩ := hs
  simp [clockEdge, liveEdge, hr, hfault, hrst, hf]

theorem clockRun_singleton (inp : PortIn) (s : State) : clockRun [inp] s = clockEdge inp s := by
  rw [clockRun]
  cases clockEdge inp s <;> rfl

/-- The remaining cycles of a command in progress, without reset, complete it (00_scope.md R10, 10_state.md R24). -/
theorem clockRun_of_busy {ins : List PortIn} {s : State} {f : Flight} (hs : s.Good) (hf : s.inFlight = some f)
    (hne : ins ≠ []) (hlen : ins.length = f.left) (hrst : ∀ inp ∈ ins, inp.rst = false) :
    clockRun ins s = complete s := by
  induction ins generalizing s f with
  | nil => exact absurd rfl hne
  | cons inp ins ih =>
    obtain ⟨hfirst, hrest⟩ := List.forall_mem_cons.1 hrst
    have hedge : clockEdge inp s = flightEdge f s := clockEdge_of_busy hs hfirst hf
    cases ins with
    | nil =>
      have hlast : f.left ≤ 1 := hlen.ge
      rw [clockRun_singleton, hedge, flightEdge, if_pos hlast]
    | cons inp' ins' =>
      have hlong : ¬ f.left ≤ 1 := by rw [← hlen]; simp
      rw [clockRun, hedge, flightEdge, if_neg hlong, ← complete_with_left hf (f.left - 1)]
      exact ih hs rfl (List.cons_ne_nil _ _) (Nat.eq_sub_of_add_eq hlen) hrest

/-! ### Assembled lines -/

/-- Every command the assembler emits is one the core accepts. -/
def EmitsAccepted (o : Option (List Instr)) : Prop := ∀ is, o = some is → ∀ i ∈ is, i.accepted = true

theorem emitsAccepted_none : EmitsAccepted none := nofun

theorem emitsAccepted_some {is : List Instr} : EmitsAccepted (some is) ↔ ∀ i ∈ is, i.accepted = true := by
  simp [EmitsAccepted]

theorem emitsAccepted_single {i : Instr} (hi : i.accepted = true) : EmitsAccepted (some [i]) := by
  simpa [EmitsAccepted] using hi

theorem EmitsAccepted.ite {c : Prop} [Decidable c] {a b : Option (List Instr)} (ha : EmitsAccepted a)
    (hb : EmitsAccepted b) : EmitsAccepted (if c then a else b) := by
  split
  · exact ha
  · exact hb

theorem le_of_asmUpTo {top n : Nat} {t : List Char} (h : asmUpTo top t = some n) : n ≤ top := by
  unfold asmUpTo at h
  split at h
  · split at h
    · cases h; assumption
    · cases h
  · cases h

theorem legalWidth_ofNat {w : Nat} (hpos : w ≠ 0) (hle : w ≤ 32) : legalWidth (BitVec.ofNat 6 w) = true := by
  have hw : w % 64 = w := Nat.mod_eq_of_lt (by omega)
  simp [legalWidth, hw, hle, Nat.one_le_iff_ne_zero, hpos]

theorem narrowPayload_iff (arg : Word) : narrowPayload arg = true ↔ arg.toNat ≤ 0x7FF := by
  have := arg.isLt
  simp only [narrowPayload, beq_iff_eq, ← BitVec.toNat_inj, BitVec.extractLsb'_toNat, Nat.shiftRight_eq_div_pow,
    BitVec.toNat_ofNat]
  omega

theorem narrowPayload_ofNat (n : Nat) (h : n ≤ 0x7FF) : narrowPayload (BitVec.ofNat 32 n) = true := by
  rw [narrowPayload_iff, BitVec.toNat_ofNat]
  omega

theorem asmBare_accepted {i : Instr} (hi : i.accepted = true) (ops : List (List Char)) :
    EmitsAccepted (asmBare i ops) := by
  unfold asmBare
  split
  · exact emitsAccepted_single hi
  · exact emitsAccepted_none

theorem asmArg_accepted {top : Nat} {f : Word → Instr}
    (hf : ∀ n ≤ top, (f (BitVec.ofNat 32 n)).accepted = true) (ops : List (List Char)) :
    EmitsAccepted (asmArg top f ops) := by
  unfold asmArg
  split
  · rename_i t
    cases h : asmUpTo top t with
    | none => exact emitsAccepted_none
    | some n => exact emitsAccepted_single (hf n (le_of_asmUpTo h))
  · exact emitsAccepted_none

theorem asmExtr_accepted (ops : List (List Char)) : EmitsAccepted (asmExtr ops) := by
  unfold asmExtr
  split
  · split
    · refine .ite emitsAccepted_none ?_
      split
      · rename_i hrange
        obtain ⟨-, hpos, hle⟩ := hrange
        exact emitsAccepted_single (legalWidth_ofNat (by omega) hle)
      · exact emitsAccepted_none
    · exact emitsAccepted_none
  · exact emitsAccepted_none

theorem crc16Pseudo_accepted (bytes : List Byte) : ∀ i ∈ crc16Pseudo bytes, i.accepted = true := by
  simp [crc16Pseudo, Instr.accepted, or_imp, forall_and]

theorem asmCrc16_accepted (ops : List (List Char)) : EmitsAccepted ((asmBytes ops).map crc16Pseudo) := by
  cases asmBytes ops with
  | none => exact emitsAccepted_none
  | some bytes => exact emitsAccepted_some.2 (crc16Pseudo_accepted bytes)

/-- The operand of `c5tok` is endpoint above address (30_encoding.md R71). -/
theorem c5tok_operand (a : BitVec 7) (e : BitVec 4) :
    a.setWidth 32 ||| e.setWidth 32 <<< 7 = (e ++ a).setWidth 32 := by
  ext k hk
  have happend : (e ++ a).getLsbD k = if k < 7 then a.getLsbD k else e.getLsbD (k - 7) := BitVec.getLsbD_append
  rw [BitVec.getElem_setWidth, happend]
  by_cases hlow : k < 7
  · simp [hlow]
  · have hzero : a.getLsbD k = false := BitVec.getLsbD_of_ge a k (by omega)
    simp [hlow, hzero]

theorem narrowPayload_setWidth (p : BitVec 11) : narrowPayload (p.setWidth 32) = true := by
  rw [narrowPayload_iff, BitVec.toNat_setWidth_of_le (by decide)]
  omega

theorem payload_setWidth (p : BitVec 11) : payload (p.setWidth 32) = p := by
  rw [payload, ← BitVec.setWidth_eq_extractLsb' (by decide), BitVec.setWidth_setWidth_of_le _ (by decide),
    BitVec.setWidth_eq]

theorem c5tokPseudo_eq (a : BitVec 7) (e : BitVec 4) : c5tokPseudo a e = .c5 ((e ++ a).setWidth 32) := by
  rw [c5tokPseudo, c5tok_operand]

theorem asmC5tok_accepted (ops : List (List Char)) : EmitsAccepted (asmC5tok ops) := by
  unfold asmC5tok
  split
  · split
    · rw [c5tokPseudo_eq]
      exact emitsAccepted_single (narrowPayload_setWidth _)
    · exact emitsAccepted_none
  · exact emitsAccepted_none

theorem popcount_le (m : Word) : popcount m ≤ 32 := List.countP_le_length

/-- Where `extrf` is accepted it is an EXTR whose mask is the field's (30_encoding.md R71). -/
theorem extrfPseudo_eq_some {l : Layout} {f : RecordField} {arg : Word} {i : Instr}
    (h : extrfPseudo l f arg = some i) :
    ∃ w, legalWidth w = true ∧ maskOf w.toNat = l.mask f ∧ i = .extr (l.off f) w arg := by
  unfold extrfPseudo at h
  split at h
  · rename_i hmask
    obtain ⟨hpos, hmask⟩ := hmask
    cases h
    have hle : popcount (l.mask f) ≤ 32 := popcount_le _
    refine ⟨_, legalWidth_ofNat hpos hle, ?_, rfl⟩
    rw [BitVec.toNat_ofNat, Nat.mod_eq_of_lt (by omega), ← hmask]
  · cases h

theorem asmExtrf_accepted (l : Layout) (ops : List (List Char)) : EmitsAccepted (asmExtrf l ops) := by
  unfold asmExtrf
  split
  · split
    · rename_i f' v' _ _
      cases h : extrfPseudo l f' (BitVec.ofNat 32 v') with
      | none => exact emitsAccepted_none
      | some i =>
        obtain ⟨w, hw, -, rfl⟩ := extrfPseudo_eq_some h
        exact emitsAccepted_single hw
    · exact emitsAccepted_none
  · exact emitsAccepted_none

theorem asmCommand_accepted (l : Layout) (m : List Char) (ops : List (List Char)) :
    EmitsAccepted (asmCommand l m ops) := by
  have harg {top : Nat} {f : Word → Instr} (hf : ∀ arg, (f arg).accepted = true) :
      EmitsAccepted (asmArg top f ops) :=
    asmArg_accepted (fun _ _ => hf _) ops
  unfold asmCommand
  exact
    .ite (asmBare_accepted rfl ops) <|                -- nop
    .ite (asmBare_accepted rfl ops) <|                -- c16init
    .ite (harg fun _ => rfl) <|                       -- c16byte
    .ite (asmBare_accepted rfl ops) <|                -- c16fin
    .ite (asmArg_accepted narrowPayload_ofNat ops) <| -- c5
    .ite (asmExtr_accepted ops) <|                    -- extr
    .ite (harg fun _ => rfl) <|                       -- xpid
    .ite (harg fun _ => rfl) <|                       -- xcyc
    .ite (harg fun _ => rfl) <|                       -- xrst
    .ite (harg fun _ => rfl) <|                       -- xtaddr
    .ite (harg fun _ => rfl) <|                       -- xtep
    .ite (harg fun _ => rfl) <|                       -- xtcrc
    .ite (harg fun _ => rfl) <|                       -- xlen
    .ite (harg fun _ => rfl) <|                       -- xframe
    .ite (harg fun _ => rfl) <|                       -- xscrc
    .ite (harg fun _ => rfl) <|                       -- xshub
    .ite (harg fun _ => rfl) <|                       -- xssc
    .ite (asmCrc16_accepted ops) <|                   -- crc16
    .ite (asmC5tok_accepted ops) <|                   -- c5tok
    .ite (asmExtrf_accepted l ops) emitsAccepted_none -- extrf

theorem assemble_accepted (l : Layout) (line : List Char) : EmitsAccepted (assemble l line) := by
  unfold assemble
  exact .ite (emitsAccepted_some.2 nofun) (asmCommand_accepted _ _ _)

theorem wellFormed_of_accepted {i : Instr} (hi : i.accepted = true) : i.wellFormed = true := by
  cases i with
  | extr o w arg => exact hi
  | _ => rfl

/-! ### The pseudo-instructions -/

theorem bytesFed_crc16Pseudo (bytes : List Byte) : bytesFed (crc16Pseudo bytes) = bytes := by
  simp [bytesFed, crc16Pseudo, byteFed, List.flatMap_map]

theorem setWidth_and_0xFF (v : Half) : (v &&& 0xFF#16).setWidth 8 = v.extractLsb' 0 8 := by
  rw [BitVec.setWidth_and, ← BitVec.setWidth_eq_extractLsb' (by decide)]
  exact BitVec.and_allOnes

/-- The source's loop is a fold of the byte step (40_crc16.md R80, R82). -/
theorem usbCrc16_eq (bytes : List Byte) : usbCrc16 bytes = crcOut (bytes.foldl crcByte crcSeed) := by
  simp only [usbCrc16, setWidth_and_0xFF]
  rfl

theorem muxStage_eq (select : Bool) (k : Nat) (v : Word) : muxStage select k v = v >>> (select.toNat * k) := by
  cases select <;> simp [muxStage]

/-- The five stages of the mux tree shift by the number their select lines write (42_extract.md R102). -/
theorem shr_eq_ushiftRight (v : Word) (o : BitVec 5) : shr v o = v >>> o.toNat := by
  have hsum : ∀ o : BitVec 5, (o.getLsbD 0).toNat * 1 + ((o.getLsbD 1).toNat * 2 + ((o.getLsbD 2).toNat * 4 +
      ((o.getLsbD 3).toNat * 8 + (o.getLsbD 4).toNat * 16))) = o.toNat := by
    decide
  simp only [shr, muxStage_eq, ← BitVec.shiftRight_add, Nat.add_assoc, hsum]

/-! ### The statements -/

/-- Settles O42, from what the decoder accepts (`decode_eq_ok_iff`). -/
theorem decodeInvertsEncode : Obligations.DecodeInvertsEncode := fun _ hi => decode_encode hi

/-- Settles O43, from what the decoder accepts: two fields make the word. -/
theorem acceptedWordsAreEncodings : Obligations.AcceptedWordsAreEncodings := by
  intro cmd arg i h
  obtain ⟨hwf, hfields, harg⟩ := decode_eq_ok_iff.1 h
  exact ⟨hwf, (encodeCmd_eq_iff i cmd).2 hfields, harg⟩

/-- Settles O55: what the accepting edge does not refuse is completed by the edges of its latency. -/
theorem clockedRunIsTheAtomicStep : Obligations.ClockedRunIsTheAtomicStep := by
  intro s cmd arg ins hs hlen hrst
  have hgood : s.Good := (unmarked_iff s).1 hs.2
  have hne : ins ≠ [] := List.ne_nil_of_length_eq_add_one hlen
  have hstep : step { s with pending := .issue cmd arg :: s.pending } = complete (accept cmd arg s) :=
    step_issue_of_ready (s := { s with pending := .issue cmd arg :: s.pending }) hs rfl
  have hrun : clockRun ins (accept cmd arg s) = complete (accept cmd arg s) :=
    clockRun_of_busy hgood rfl hne hlen hrst
  rw [hstep, clockRun, clockEdge_offer_of_ready hs, acceptEdge]
  cases h : complete (accept cmd arg s) with
  | next t => exact hrun.trans h
  | fault r => rfl
  | refused r => rfl

/-- Settles O59: each kind of line emits accepted commands only, and an accepted command reads back. -/
theorem assemblerNeverEmitsARefusedCommand : Obligations.AssemblerNeverEmitsARefusedCommand := by
  intro l line is i h hi
  have haccepted : i.accepted = true := assemble_accepted l line is h i hi
  exact ⟨haccepted, decode_encode (wellFormed_of_accepted haccepted)⟩

/-- Settles O60: `crc16` folds the byte step, `c5tok` is C5 on endpoint above address, and `extrf` is EXTR with the
field's mask, whose mux tree is a shift. -/
theorem pseudoInstructionsMeanTheirExpansions : Obligations.PseudoInstructionsMeanTheirExpansions := by
  refine ⟨fun bytes s => ⟨bytesFed_crc16Pseudo bytes, bytes.foldl crcByte crcSeed, ?_⟩, fun a e s => ?_,
    fun l f arg i s h => ?_⟩
  · rw [usbCrc16_eq]
    exact execAll_crc16Pseudo bytes s
  · rw [c5tokPseudo_eq, exec, execC5, if_pos (narrowPayload_setWidth _), payload_setWidth]
    exact ⟨_, _, resultCrc5_next ..⟩
  · obtain ⟨w, hw, hmask, rfl⟩ := extrfPseudo_eq_some h
    rw [exec, execExtr, if_pos hw, hmask, shr_eq_ushiftRight, result_next, BitVec.setWidth_eq]

/-- Settles O3: the word has opcode 0x00 and low field 0, and `nop` ignores its operand. -/
theorem nopChangesNothing : Obligations.NopChangesNothing :=
  ⟨fun _ => decode_eq_ok_iff.2 ⟨rfl, ⟨rfl, rfl⟩, .inr (.inl rfl)⟩, fun _ => rfl⟩

/-- Settles O41, by running the decoder on the seven words. -/
theorem decodeReadsTheWordsOfTheMap : Obligations.DecodeReadsTheWordsOfTheMap :=
  ⟨rfl, rfl, rfl, rfl, rfl, rfl, rfl⟩

/-- Settles O44, by the decoder's first check. -/
theorem reservedOpcodesAreRefused : Obligations.ReservedOpcodesAreRefused := by
  intro s cmd arg rest hs hp hop
  rw [← opField_toNat] at hop
  exact step_issue_of_error hs hp (decode_of_reservedOp ((reservedOp_iff _).2 hop) arg)

/-- Settles O45: the opcode is neither reserved nor EXTR's, so the decoder looks at cmd[10:0]. -/
theorem reservedFieldsAreRefused : Obligations.ReservedFieldsAreRefused := by
  intro s cmd arg rest hs hp hop hlow
  rw [← opField_toNat] at hop
  rw [← lowField_toNat] at hlow
  have hr : reservedOp (opField cmd) = false := by
    rw [Bool.eq_false_iff, ne_eq, reservedOp_iff]
    omega
  have hextr : opField cmd ≠ 0x05#5 := fun h => by
    rw [h, BitVec.toNat_ofNat] at hop
    omega
  have hlow : lowField cmd ≠ 0#11 := fun h => hlow (congrArg BitVec.toNat h)
  exact step_issue_of_error hs hp (decode_of_lowField_ne hr hextr hlow arg)

/-- Settles O46, by the decoder's check of EXTR's width. -/
theorem extractWidthsAreRefused : Obligations.ExtractWidthsAreRefused := by
  intro s cmd arg rest hs hp hop hw
  rw [← opField_toNat] at hop
  rw [← widthField_toNat] at hw
  have hillegal : ¬ legalWidth (widthField cmd) = true := by
    simp only [legalWidth, Bool.and_eq_true, decide_eq_true_eq]
    omega
  exact step_issue_of_error hs hp ((decode_of_extrOp (BitVec.toNat_inj.1 hop) arg).trans (if_neg hillegal))

/-- Settles O47: the step is the completion of the accepted command. -/
theorem stepRunsTheDecodedCommand : Obligations.StepRunsTheDecodedCommand := by
  intro s cmd arg rest i hs hp hi
  rw [step_issue_of_ready hs hp, complete_accept_of_ok hi]
  rfl

end Sys2Proof.Machine

/-! ## CRC-16: the commands, the bit-serial form, the stream and the catalogue (40_crc16.md) -/

namespace Sys2Proof.Machine

/-! ### The table step is eight bit steps -/

/-- While the bits shifted out are 0 a bit step only shifts (40_crc16.md R85). -/
theorem crcBitSteps_eq_ushiftRight {k : Nat} {c : Half} (hc : ∀ j, j < k → c.getLsbD j = false) :
    crcBitSteps k c = c >>> k := by
  induction k generalizing c with
  | zero => rfl
  | succ k ih =>
    have hshifted (j : Nat) (hj : j < k) : (c >>> 1).getLsbD j = false := by
      rw [BitVec.getLsbD_ushiftRight]
      exact hc (1 + j) (by omega)
    have hlow : c.getLsbD 0 = false := hc 0 (by omega)
    rw [crcBitSteps, hlow, if_neg Bool.false_ne_true, ih hshifted, ← BitVec.shiftRight_add, Nat.add_comm]

/-- Eight bit steps shift the high byte down and add the ROM entry of the low byte (10_state.md R27). -/
theorem crcBitSteps_eight (c : Half) : crcBitSteps 8 c = c >>> 8 ^^^ crcTable (c.extractLsb' 0 8) := by
  have hsplit : c = c >>> 8 <<< 8 ^^^ (c.extractLsb' 0 8).setWidth 16 := by
    ext k hk
    by_cases hlow : k < 8
    · simp [hlow, BitVec.getLsbD_eq_getElem hk]
    · simp [hlow, BitVec.getLsbD_eq_getElem hk, show 8 + (k - 8) = k by omega]
  have hhigh : crcBitSteps 8 (c >>> 8 <<< 8) = c >>> 8 := by
    rw [crcBitSteps_eq_ushiftRight fun j hj => by simp [hj]]
    ext k hk
    by_cases hlow : 8 + k < 16
    · simp [hlow]
    · simp [hlow, BitVec.getLsbD_of_ge c (8 + k) (by omega)]
  calc crcBitSteps 8 c
      = crcBitSteps 8 (c >>> 8 <<< 8 ^^^ (c.extractLsb' 0 8).setWidth 16) := by rw [← hsplit]
    _ = c >>> 8 ^^^ crcTable (c.extractLsb' 0 8) := by
      rw [crcBitSteps_xor, hhigh, crcTable_eq_generatedEntry, generatedEntry]

/-- The byte step with the table is the bit-serial one: the byte reaches no bit above 7 (40_crc16.md R82, R85). -/
theorem crcByte_eq_serialByte (acc : Half) (b : Byte) : crcByte acc b = serialByte acc b := by
  have hbyte : b.setWidth 16 >>> 8 = 0#16 := by
    ext k hk
    simp
  rw [serialByte, crcBitSteps_eight, BitVec.ushiftRight_xor_distrib, hbyte, BitVec.xor_zero, crcByte]

/-! ### The stream -/

/-- A command that meets no refusal is performed in every state (60_exceptions.md R133). -/
theorem exec_next_of_accepted {i : Instr} (hi : i.accepted = true) (s : State) : ∃ t, exec i s = .next t := by
  cases i with
  | c5 arg => exact ⟨_, if_pos hi⟩
  | extr o w arg => exact ⟨_, if_pos hi⟩
  | _ => exact ⟨_, rfl⟩

/-- A command that neither starts nor ends a stream takes ACC16 through the byte it feeds, if it feeds one
(20_memory.md R42). -/
theorem exec_next_acc16_of_byteFed {i : Instr} {s t : State} (hi : i.startsOrEndsStream = false)
    (h : exec i s = .next t) : t.acc16 = (byteFed i).foldl crcByte s.acc16 := by
  cases i with
  | c16init => cases hi
  | c16fin => cases hi
  | c16byte arg =>
    rw [exec_c16byte] at h
    cases h
    rfl
  | _ => exact exec_next_acc16 rfl h

/-- The body of a stream is performed to its end, and ACC16 has gone through the bytes fed, whatever is interleaved
(40_crc16.md R84). -/
theorem execAll_next_of_body {body : List Instr}
    (hbody : ∀ i ∈ body, i.accepted = true ∧ i.startsOrEndsStream = false) (s : State) :
    ∃ t, execAll body s = .next t ∧ t.acc16 = (bytesFed body).foldl crcByte s.acc16 := by
  induction body generalizing s with
  | nil => exact ⟨s, rfl, rfl⟩
  | cons i body ih =>
    obtain ⟨⟨haccepted, hstream⟩, hrest⟩ := List.forall_mem_cons.1 hbody
    obtain ⟨u, hu⟩ := exec_next_of_accepted haccepted s
    obtain ⟨t, ht, hacc⟩ := ih hrest u
    refine ⟨t, (execAll_cons_of_next hu body).trans ht, ?_⟩
    rw [hacc, exec_next_acc16_of_byteFed hstream hu, bytesFed, bytesFed, List.flatMap_cons, List.foldl_append]

/-! ### The catalogued CRC-16/USB -/

theorem reverse_xor {w : Nat} (x y : BitVec w) : (x ^^^ y).reverse = x.reverse ^^^ y.reverse := by
  ext k hk
  simp [BitVec.getElem_reverse]

theorem reverse_shiftLeft {w : Nat} (x : BitVec w) (n : Nat) : (x <<< n).reverse = x.reverse >>> n := by
  ext k hk
  simp [BitVec.getElem_reverse, BitVec.getLsbD_reverse, Nat.add_comm]

/-- The unreflected register is the mirror of the reflected one: its top bit is the other's bit 0, its left shift a
right shift, and 0x8005 mirrors to 0xA001 (40_crc16.md R85, R86). -/
theorem catalogueBitSteps_reverse (k : Nat) (c : Half) :
    (catalogueBitSteps k c).reverse = crcBitSteps k c.reverse := by
  induction k generalizing c with
  | zero => rfl
  | succ k ih =>
    have hpoly : (0x8005#16).reverse = 0xA001#16 := by decide
    have hout : c.reverse.getLsbD 0 = c.msb := by rw [← BitVec.msb_reverse, BitVec.reverse_reverse_eq]
    rw [catalogueBitSteps, ih, crcBitSteps, hout, apply_ite BitVec.reverse, reverse_xor, reverse_shiftLeft, hpoly]

/-- The reflected input byte in the top byte is the mirror of the byte in the low one (40_crc16.md R86). -/
theorem reverse_setWidth_byte (b : Byte) : (b.setWidth 16).reverse = b.reverse.setWidth 16 <<< 8 := by
  ext k hk
  interval_cases k <;> simp [BitVec.getElem_reverse, BitVec.getMsbD]

/-- The catalogued CRC is what the byte step folds from the seed, complemented (40_crc16.md R86). -/
theorem catalogueCrc16_eq (bytes : List Byte) : catalogueCrc16 bytes = crcOut (bytes.foldl crcByte crcSeed) := by
  have hseed : crcSeed = (0xFFFF#16).reverse := by decide
  have hstep (c : Half) (b : Byte) :
      crcByte c.reverse b = (catalogueBitSteps 8 (c ^^^ (b.reverse.setWidth 16 <<< 8))).reverse := by
    rw [crcByte_eq_serialByte, serialByte, catalogueBitSteps_reverse, reverse_xor, ← reverse_setWidth_byte,
      BitVec.reverse_reverse_eq]
  rw [hseed, List.foldl_hom BitVec.reverse hstep, catalogueCrc16, crcOut]

/-! ### The statements -/

/-- Settles O26: C16BYTE is the byte step with the table, which is the bit-serial one. -/
theorem byteStepIsEightBitSteps : Obligations.ByteStepIsEightBitSteps := fun arg s => by
  rw [exec_c16byte, crcByte_eq_serialByte]

/-- Settles O27: the body takes the seed through the bytes fed (`execAll_next_of_body`), as the source's loop does; one
byte meets the seed 0xFFFF, whose shift is 0x00FF. -/
theorem streamComputesUsbCrc16 : Obligations.StreamComputesUsbCrc16 := by
  refine ⟨fun body s hbody => ?_, fun b => ?_⟩
  · obtain ⟨t, ht, hacc⟩ := execAll_next_of_body hbody { s with acc16 := crcSeed }
    refine ⟨{ t with rsp := (crcOut t.acc16).setWidth 32, rspValid := true }, ?_, ?_, rfl⟩
    · rw [execAll_cons_of_next (t := { s with acc16 := crcSeed }) rfl, execAll_append_of_next ht]
      rfl
    · rw [usbCrc16_eq, hacc]
  · have hindex : (crcSeed ^^^ b.setWidth 16).extractLsb' 0 8 = b ^^^ 0xFF#8 := by
      rw [← BitVec.setWidth_eq_extractLsb' (by decide), BitVec.setWidth_xor,
        BitVec.setWidth_setWidth_of_le _ (by decide), BitVec.setWidth_eq, BitVec.xor_comm]
      rfl
    have hconst : crcSeed >>> 8 ^^^ 0xFFFF#16 = 0xFF00#16 := by decide
    rw [usbCrc16_eq, List.foldl_cons, List.foldl_nil, crcOut, crcByte, hindex, ← hconst]
    ac_rfl

/-- Settles O28: `crc16` folds the byte step from the seed, as the catalogued CRC does in its mirrored register. -/
theorem streamIsTheCatalogueCrc16 : Obligations.StreamIsTheCatalogueCrc16 := by
  have hcrc (bytes : List Byte) (s : State) : ∃ a : Half, execAll (crc16Pseudo bytes) s
      = .next { s with acc16 := a, rsp := (catalogueCrc16 bytes).setWidth 32, rspValid := true } := by
    rw [catalogueCrc16_eq]
    exact ⟨_, execAll_crc16Pseudo bytes s⟩
  have hcheck : (catalogueCrc16 [0x31#8, 0x32#8, 0x33#8, 0x34#8, 0x35#8, 0x36#8, 0x37#8, 0x38#8, 0x39#8]).setWidth 32
      = 0xB4C8#32 := by
    rw [catalogueCrc16_eq]
    rfl
  refine ⟨hcrc, fun s => ?_⟩
  rw [← hcheck]
  exact hcrc _ s

/-- Settles O4: the word has opcode 0x01 and low field 0, and `c16init` ignores its operand. -/
theorem c16InitSeedsTheAccumulator : Obligations.C16InitSeedsTheAccumulator :=
  ⟨fun _ => decode_eq_ok_iff.2 ⟨rfl, ⟨rfl, rfl⟩, .inr (.inr (.inl rfl))⟩, fun _ => rfl, fun _ => rfl⟩

/-- Settles O5: the word has opcode 0x02 and low field 0; C16BYTE is the byte step (`exec_c16byte`), and the shifted
accumulator has no bit above 7. -/
theorem c16ByteLooksUpOneEntry : Obligations.C16ByteLooksUpOneEntry := by
  refine ⟨fun _ => decode_eq_ok_iff.2 ⟨rfl, ⟨rfl, rfl⟩, .inl rfl⟩, fun arg s => ⟨?_, ?_⟩⟩
  · rw [exec_c16byte, crcByte, ← BitVec.setWidth_eq_extractLsb' (by decide)]
  · have hhigh : (s.acc16 >>> 8).extractLsb' 8 8 = 0#8 := by
      ext k hk
      simp [BitVec.getLsbD_of_ge s.acc16 (8 + (8 + k)) (by omega)]
    rw [BitVec.extractLsb'_xor, hhigh, BitVec.zero_xor]

/-- Settles O6: the word has opcode 0x03 and low field 0, and C16FIN reads ACC16 without writing it. -/
theorem c16FinDeliversTheComplement : Obligations.C16FinDeliversTheComplement := by
  refine ⟨fun _ => decode_eq_ok_iff.2 ⟨rfl, ⟨rfl, rfl⟩, .inr (.inr (.inr rfl))⟩, fun _ => rfl, fun s => ?_,
    fun _ => rfl⟩
  have hzero : (crcOut crcSeed).setWidth 32 = 0#32 := by decide
  rw [← hzero]
  rfl

end Sys2Proof.Machine

/-! ## CRC-5: the engine's registers and the command C5 (41_crc5.md) -/

namespace Sys2Proof.Machine

/-- C5 accepts what fits in 11 bits and delivers its CRC-5 (41_crc5.md R95). -/
theorem exec_c5_of_le {arg : Word} (h : arg.toNat ≤ 0x7FF) (s : State) :
    exec (.c5 arg) s
      = .next { releaseC5 s with rsp := (crc5 (arg.setWidth 11)).setWidth 32, rspValid := true } := by
  rw [exec, execC5, if_pos ((narrowPayload_iff arg).2 h), resultCrc5_next, payload,
    ← BitVec.setWidth_eq_extractLsb' (by decide)]

/-- C5 refuses a payload wider than 11 bits (41_crc5.md R95). -/
theorem exec_c5_of_lt {arg : Word} (h : 0x7FF < arg.toNat) (s : State) :
    exec (.c5 arg) s = .refused .widePayload := by
  rw [exec, execC5, if_neg (mt (narrowPayload_iff arg).1 (Nat.not_le.2 h))]

/-! ### The statements -/

/-- Settles O31: the data word is the 16-bit mirror, and the payload has no bit above bit 10. -/
theorem mirrorReversesThePayload : Obligations.MirrorReversesThePayload := by
  intro p
  have hbit {i : Nat} (hi : i < 16) : (mirrorPayload p).getLsbD (15 - i) = p.getLsbD i := by
    rw [mirrorPayload_eq_reverse, BitVec.getLsbD_reverse, BitVec.getMsbD_eq_getLsbD, BitVec.getLsbD_setWidth]
    simp [Nat.sub_sub_self (Nat.le_of_lt_succ hi), show 15 - i < 16 by omega, hi]
  refine ⟨mirrorPayload_eq_reverse p, fun i hi => hbit (by omega), fun k hk => ?_⟩
  rw [← Nat.sub_sub_self (show k ≤ 15 by omega), hbit (by omega), BitVec.getLsbD_of_ge p _ (by omega)]

/-- Settles O32: along the run C5_C is the mirrored register above eleven zero bits, and C5_N is the count
(`c5Iterations_c5Load`). -/
theorem lfsrKeepsLowBitsZero : Obligations.LfsrKeepsLowBitsZero := by
  intro p k hk
  rw [c5Iterations_c5Load p (by omega)]
  refine ⟨fun j hj => ?_, ?_⟩
  · rw [BitVec.getLsbD_append, if_pos hj, BitVec.getLsbD_zero]
  · rw [BitVec.toNat_ofNat, Nat.mod_eq_of_lt (by omega)]

/-- Settles O33: the engine's register is the mirror of the reflected one (`crc5_eq_reflectedCrc5`), and the kernel runs
the 72 steps of the check value. -/
theorem crc5IsTheReflectedForm : Obligations.Crc5IsTheReflectedForm :=
  ⟨crc5_eq_reflectedCrc5, by decide +kernel⟩

/-- Settles O7: the word has opcode 0x04 and low field 0, and C5 splits on the width of its operand. -/
theorem c5DeliversCrc5OrRefuses : Obligations.C5DeliversCrc5OrRefuses := by
  refine ⟨fun _ => decode_eq_ok_iff.2 ⟨rfl, ⟨rfl, rfl⟩, .inl rfl⟩, fun arg s h => ⟨⟨_, _, exec_c5_of_le h s⟩, ?_⟩,
    fun arg s h => exec_c5_of_lt h s⟩
  rw [BitVec.toNat_setWidth_of_le (by decide)]
  exact Nat.le_of_lt_succ (crc5 (arg.setWidth 11)).isLt

/-- Settles O35: the payload fits in 11 bits, and the kernel runs the engine on it. -/
theorem sourceExampleHasCrc5Five : Obligations.SourceExampleHasCrc5Five := by
  have hcrc : (crc5 ((0x1BA#32).setWidth 11)).setWidth 32 = 0x05#32 := by decide +kernel
  have hne : 0x05#32 ≠ 0x0A#32 := by decide
  exact ⟨by decide, fun s => ⟨_, exec_c5_of_le (by decide) s, hcrc, hcrc.trans_ne hne⟩⟩

end Sys2Proof.Machine

/-! ## The extractor: the mux tree, the fields of a record and the field commands (42_extract.md) -/

namespace Sys2Proof.Machine

/-! ### Fields and sub-fields of a record -/

/-- The record is shifted down to its field and masked (42_extract.md R103). -/
theorem field_eq (l : Layout) (f : RecordField) (r : Word) : field l f r = (r >>> (l.off f).toNat) &&& l.mask f :=
  congrArg (· &&& l.mask f) (shr_eq_ushiftRight r (l.off f))

theorem getLsbD_field (l : Layout) (f : RecordField) (r : Word) (k : Nat) :
    (field l f r).getLsbD k = (r.getLsbD ((l.off f).toNat + k) && (l.mask f).getLsbD k) := by
  rw [field_eq, BitVec.getLsbD_and, BitVec.getLsbD_ushiftRight]

theorem getLsbD_maskOf {w : Nat} (hw : w ≤ 32) (k : Nat) : (maskOf w).getLsbD k = decide (k < w) := by
  rw [maskOf, BitVec.getLsbD_ofNat, Nat.testBit_two_pow_sub_one]
  have h : k < w → k < 32 := (Nat.lt_of_lt_of_le · hw)
  simpa using h

/-- A sub-field reads `x` when the record holds `x` at the sum of the two offsets and the field's mask keeps those bits
(42_extract.md R109, R110). -/
theorem subField_field_eq {n : Nat} (hn : n ≤ 32) {l : Layout} {f : RecordField} {r : Word} {o : BitVec 5}
    {x : BitVec n} (hr : ∀ k, k < n → r.getLsbD ((l.off f).toNat + o.toNat + k) = x.getLsbD k)
    (hm : ∀ k, k < n → (l.mask f).getLsbD (o.toNat + k) = true) :
    subField (field l f r) o (maskOf n) = x.setWidth 32 := by
  apply BitVec.eq_of_getLsbD_eq
  intro k hk
  rw [subField, BitVec.getLsbD_and, BitVec.getLsbD_ushiftRight, getLsbD_field, getLsbD_maskOf hn, ← Nat.add_assoc,
    BitVec.getLsbD_setWidth]
  by_cases h : k < n
  · simp [hr k h, hm k h, h, hk]
  · simp [h, BitVec.getLsbD_of_ge x k (Nat.le_of_not_lt h)]

/-! ### The packed token record (42_extract.md R119) -/

/-- Outside the two windows the record has the junk bits, inside the address and the endpoint. -/
theorem getLsbD_packToken (junk : Word) (p q : Nat) (a : BitVec 7) (e : BitVec 4) {i : Nat} (hi : i < 32) :
    (packToken junk p q a e).getLsbD i =
      (junk.getLsbD i && !(decide (p ≤ i ∧ i < p + 7) || decide (q ≤ i ∧ i < q + 4))
        || decide (p ≤ i) && a.getLsbD (i - p) || decide (q ≤ i) && e.getLsbD (i - q)) := by
  have hwindow {n : Nat} (hn : n ≤ 32) (j : Nat) :
      (maskOf n <<< j).getLsbD i = decide (j ≤ i ∧ i < j + n) := by
    rw [BitVec.getLsbD_shiftLeft, getLsbD_maskOf hn]
    grind
  have hvalue {n : Nat} (x : BitVec n) (j : Nat) :
      (x.setWidth 32 <<< j).getLsbD i = (decide (j ≤ i) && x.getLsbD (i - j)) := by
    rw [BitVec.getLsbD_shiftLeft, BitVec.getLsbD_setWidth]
    grind
  change ((junk &&& ~~~(maskOf 7 <<< p ||| maskOf 4 <<< q)) ||| _ ||| _).getLsbD i = _
  rw [BitVec.getLsbD_or, BitVec.getLsbD_or, BitVec.getLsbD_and, BitVec.getLsbD_not, BitVec.getLsbD_or,
    hwindow (by decide), hwindow (by decide), hvalue, hvalue, decide_eq_true hi, Bool.true_and]

theorem getLsbD_packToken_address (junk : Word) {p q : Nat} (a : BitVec 7) (e : BitVec 4) (hp : p + 7 ≤ 32)
    (hdisj : p + 7 ≤ q ∨ q + 4 ≤ p) {k : Nat} (hk : k < 7) :
    (packToken junk p q a e).getLsbD (p + k) = a.getLsbD k := by
  have hother : (decide (q ≤ p + k) && e.getLsbD (p + k - q)) = false := by
    obtain h | h := hdisj
    · simp [show ¬ q ≤ p + k by omega]
    · simp [BitVec.getLsbD_of_ge e (p + k - q) (by omega)]
  rw [getLsbD_packToken junk p q a e (by omega), hother]
  simp [hk]

theorem getLsbD_packToken_endpoint (junk : Word) {p q : Nat} (a : BitVec 7) (e : BitVec 4) (hq : q + 4 ≤ 32)
    (hdisj : p + 7 ≤ q ∨ q + 4 ≤ p) {k : Nat} (hk : k < 4) :
    (packToken junk p q a e).getLsbD (q + k) = e.getLsbD k := by
  have hother : (decide (p ≤ q + k) && a.getLsbD (q + k - p)) = false := by
    obtain h | h := hdisj
    · simp [BitVec.getLsbD_of_ge a (q + k - p) (by omega)]
    · simp [show ¬ p ≤ q + k by omega]
  rw [getLsbD_packToken junk p q a e (by omega), hother]
  simp [hk]

/-! ### The packet identifier -/

/-- The sixteen expanded codes are the table's, and each has its code below the complement (42_extract.md R118). -/
theorem expandPid_table : ∀ c : BitVec 4, expandPid c = pidTable.getD c.toNat 0#8
    ∧ (expandPid c).toNat % 16 = c.toNat ∧ (expandPid c).toNat / 16 = 15 - c.toNat := by
  decide

/-- The mask of PID leaves a number of four bits (42_extract.md R101). -/
theorem toNat_setWidth_and_0xF (v : Word) : ((v &&& 0xF#32).setWidth 4).toNat = (v &&& 0xF#32).toNat := by
  have hlt : (v &&& 0xF#32).toNat < 2 ^ 4 := Nat.and_lt_two_pow v.toNat (by decide)
  rw [BitVec.toNat_setWidth, Nat.mod_eq_of_lt hlt]

/-! ### The commands -/

/-- A result of 32 bits is delivered as it is (00_scope.md R14). -/
theorem result_word_of_eq {v w : Word} (h : v = w) (s : State) :
    result v s = .next { s with rsp := w, rspValid := true } := by
  rw [result_next, h, BitVec.setWidth_eq]

/-- A run of CRC5U writes RSP, RSP_VALID, C5_* and the draw counter only (41_crc5.md R94). -/
theorem resultCrc5_of_eq {p p' : BitVec 11} (h : p = p') (s : State) : ∃ (r : C5Regs) (n : Nat),
    resultCrc5 p s = .next { s with rsp := (crc5 p').setWidth 32, rspValid := true, c5 := r, draws := n } :=
  h ▸ ⟨_, _, resultCrc5_next p s⟩

theorem payload_eq_setWidth (v : Word) : payload v = v.setWidth 11 :=
  (BitVec.setWidth_eq_extractLsb' (by decide)).symm

theorem legalWidth_iff (w : BitVec 6) : legalWidth w = true ↔ 1 ≤ w.toNat ∧ w.toNat ≤ 32 := by
  simp [legalWidth]

/-- A word with the two fields of a well-formed command decodes to it, with its own operand (30_encoding.md R69). -/
theorem decode_of_fields {i : Instr} {cmd : CmdWord} (hi : i.wellFormed = true) (hop : opField cmd = i.opcode)
    (hlow : lowField cmd = i.lowBits) : decode cmd (encodeArg i) = .ok i :=
  decode_eq_ok_iff.2 ⟨hi, ⟨hop, hlow⟩, .inl rfl⟩

/-- The word of EXTR is its opcode, the width and the offset side by side (30_encoding.md R62). -/
theorem encodeCmd_extr (o : BitVec 5) (w : BitVec 6) (arg : Word) :
    encodeCmd (.extr o w arg) = 0x2800#16 ||| (w.setWidth 16 <<< 5) ||| o.setWidth 16 := by
  have hw : (w.setWidth 11 <<< 5).setWidth 16 = w.setWidth 16 <<< 5 := by
    ext k hk
    by_cases h : k < 11
    · simp [h]
    · simp [h, BitVec.getLsbD_of_ge w (k - 5) (by omega)]
  have ho : (o.setWidth 11).setWidth 16 = o.setWidth 16 := by
    ext k hk
    simp
  rw [encodeCmd, Instr.lowBits, BitVec.setWidth_or, hw, ho, ← BitVec.or_assoc]
  rfl

theorem exec_xpid (arg : Word) (s : State) :
    exec (.xpid arg) s = .next { s with
      rsp := (expandPid (((arg >>> s.layout.offPid.toNat) &&& 0xF#32).setWidth 4)).setWidth 32
      rspValid := true } := by
  rw [exec, execXpid, result_next, field_eq, ← BitVec.setWidth_eq_extractLsb' (by decide)]
  rfl

/-! ### The LAYOUT supplied at build time -/

theorem legalOff_iff (n : Nat) : legalOff n = true ↔ n ≤ 31 := by
  rw [legalOff, decide_eq_true_iff, Nat.lt_succ_iff]

/-- The check at build time is rule R101. -/
theorem legal_iff (raw : RawLayout) : raw.legal = true ↔ raw.MeetsR101 := by
  simp only [RawLayout.legal, Bool.and_eq_true, legalOff_iff, beq_iff_eq]
  tauto

theorem toNat_ofNat_of_le_31 {n : Nat} (h : n ≤ 31) : (BitVec.ofNat 5 n).toNat = n := by
  rw [BitVec.toNat_ofNat, Nat.mod_eq_of_lt (by omega)]

theorem toLayout_off {raw : RawLayout} (h : raw.MeetsR101) (f : RecordField) :
    (raw.toLayout.off f).toNat = (raw.spec f).off := by
  obtain ⟨⟨hpid, hcycle, hreset, htoken, hlength, hframe, hsplit⟩, -⟩ := h
  cases f <;> exact toNat_ofNat_of_le_31 (by assumption)

theorem toLayout_mask {raw : RawLayout} (h : raw.MeetsR101) (f : RecordField) :
    raw.toLayout.mask f = (raw.spec f).mask := by
  obtain ⟨-, hpid, hframe, -⟩ := h
  cases f with
  | pid => exact hpid.symm
  | frame => exact hframe.symm
  | _ => rfl

/-! ### The statements -/

/-- Settles O8: the word is the command's encoding (`encodeCmd_extr`), and the mux tree is a shift
(`shr_eq_ushiftRight`). -/
theorem extrExtractsTheField : Obligations.ExtrExtractsTheField := by
  refine ⟨fun o w arg s hpos hle => ?_, fun o w arg s hw => ?_⟩
  · have hlegal : legalWidth w = true := (legalWidth_iff w).2 ⟨hpos, hle⟩
    constructor
    · rw [← encodeCmd_extr o w arg]
      exact decode_encode hlegal
    · rw [exec, execExtr, if_pos hlegal, shr_eq_ushiftRight]
      exact result_word_of_eq rfl s
  · rw [exec, execExtr, if_neg]
    rw [legalWidth_iff]
    omega

/-- Settles O20: the stages are those of `shr`, and together they shift by the number their select lines write. -/
theorem muxTreeIsALogicalRightShift : Obligations.MuxTreeIsALogicalRightShift :=
  fun v o => ⟨rfl, shr_eq_ushiftRight v o⟩

/-- Settles O21: bit `k` of a field is the record's bit `OFF_f + k` where the mask has a one, and 0 elsewhere. -/
theorem fieldTakesOnlyBitsOfTheField : Obligations.FieldTakesOnlyBitsOfTheField := by
  refine ⟨field_eq, fun l f r r' h => BitVec.eq_of_getLsbD_eq fun k _ => ?_⟩
  rw [getLsbD_field, getLsbD_field]
  cases hm : (l.mask f).getLsbD k with
  | true => rw [h k hm]
  | false => rw [Bool.and_false, Bool.and_false]

/-- Settles O22, from the sixteen expanded codes (`expandPid_table`). -/
theorem xpidFollowsThePidTable : Obligations.XpidFollowsThePidTable := by
  intro arg s c hc
  obtain ⟨htable, hlow, hhigh⟩ := expandPid_table (((arg >>> s.layout.offPid.toNat) &&& 0xF#32).setWidth 4)
  rw [toNat_setWidth_and_0xF, ← hc] at htable hlow hhigh
  refine ⟨_, exec_xpid arg s, congrArg (BitVec.setWidth 32) htable, ?_⟩
  rw [BitVec.toNat_setWidth_of_le (by decide)]
  exact ⟨hlow, hhigh⟩

/-- Settles O23: each sub-field reads the bits of the packed record at its own window. -/
theorem tokenFieldsRoundTrip : Obligations.TokenFieldsRoundTrip := by
  rintro s junk a e p q rfl rfl hp hq hdisj haddr hep
  have ha := subField_field_eq (f := .token) (by decide)
    (fun k hk => getLsbD_packToken_address junk a e hp hdisj hk) haddr
  have he := subField_field_eq (f := .token) (by decide)
    (fun k hk => getLsbD_packToken_endpoint junk a e hq hdisj hk) hep
  exact ⟨result_word_of_eq ha s, result_word_of_eq he s⟩

/-- Settles O52: the build-time check is R101 (`legal_iff`); a refused table leaves the REFUSED mark, a legal one the
layout it stands for. -/
theorem badLayoutIsRefusedBeforeAnyStep : Obligations.BadLayoutIsRefusedBeforeAnyStep := by
  refine fun raw => ⟨fun hbad acts => ?_, fun hmeets => ?_⟩
  · have hmark : (State.configured raw).refusedMark = some .badLayout := by
      rw [State.configured, if_neg (mt (legal_iff raw).1 hbad)]
    exact step_of_refusedMark hmark
  · have ⟨_, _, _, haddr, hep, hhub, hsc⟩ := hmeets
    rw [State.configured, if_pos ((legal_iff raw).2 hmeets)]
    exact ⟨rfl, fun f => ⟨toLayout_off hmeets f, toLayout_mask hmeets f⟩, toNat_ofNat_of_le_31 haddr,
      toNat_ofNat_of_le_31 hep, toNat_ofNat_of_le_31 hhub, toNat_ofNat_of_le_31 hsc⟩

/-- Settles O9: the word has the command's two fields, and the PID is expanded from the field's low four bits. -/
theorem xpidExpandsTheCode : Obligations.XpidExpandsTheCode :=
  ⟨fun arg => decode_of_fields (i := .xpid arg) rfl rfl rfl, exec_xpid⟩

/-- Settles O10: the word has the command's two fields, and the result is the scaled field (`field_eq`). -/
theorem xcycScalesTheCycleField : Obligations.XcycScalesTheCycleField :=
  ⟨fun arg => decode_of_fields (i := .xcyc arg) rfl rfl rfl,
    fun arg s => result_word_of_eq (congrArg scale256 (field_eq s.layout .cycle arg)) s⟩

/-- Settles O11: the word has the command's two fields, and the result is the scaled field (`field_eq`). -/
theorem xrstScalesTheResetField : Obligations.XrstScalesTheResetField :=
  ⟨fun arg => decode_of_fields (i := .xrst arg) rfl rfl rfl,
    fun arg s => result_word_of_eq (congrArg scale256 (field_eq s.layout .reset arg)) s⟩

/-- Settles O12: the word has the command's two fields, and the result is a sub-field of the token data (`field_eq`). -/
theorem xtaddrDeliversTheDeviceAddress : Obligations.XtaddrDeliversTheDeviceAddress :=
  ⟨fun arg => decode_of_fields (i := .xtaddr arg) rfl rfl rfl,
    fun arg s => result_word_of_eq (congrArg (subField · _ 0x7F#32) (field_eq s.layout .token arg)) s⟩

/-- Settles O13: the word has the command's two fields, and the result is a sub-field of the token data (`field_eq`). -/
theorem xtepDeliversTheEndpoint : Obligations.XtepDeliversTheEndpoint :=
  ⟨fun arg => decode_of_fields (i := .xtep arg) rfl rfl rfl,
    fun arg s => result_word_of_eq (congrArg (subField · _ 0xF#32) (field_eq s.layout .token arg)) s⟩

/-- Settles O14: the word has the command's two fields, and the payload is the truncated token data. -/
theorem xtcrcDeliversTheExpectedTokenCrc : Obligations.XtcrcDeliversTheExpectedTokenCrc := by
  refine ⟨fun arg => decode_of_fields (i := .xtcrc arg) rfl rfl rfl, fun arg s => resultCrc5_of_eq ?_ s⟩
  rw [payload_eq_setWidth, field_eq]
  rfl

/-- Settles O15: the word has the command's two fields, and the result is the field itself (`field_eq`). -/
theorem xlenDeliversTheLength : Obligations.XlenDeliversTheLength :=
  ⟨fun arg => decode_of_fields (i := .xlen arg) rfl rfl rfl,
    fun arg s => result_word_of_eq (field_eq s.layout .length arg) s⟩

/-- Settles O16: the word has the command's two fields, the result is the field itself (`field_eq`), and its mask bounds
it. -/
theorem xframeDeliversTheFrameNumber : Obligations.XframeDeliversTheFrameNumber :=
  ⟨fun arg => decode_of_fields (i := .xframe arg) rfl rfl rfl,
    fun arg s => ⟨result_word_of_eq (field_eq s.layout .frame arg) s, Nat.and_le_right⟩⟩

/-- Settles O17: the word has the command's two fields, and the mask of FRAME keeps the eleven bits of the payload, so
it is the truncated record. -/
theorem xscrcDeliversTheExpectedFrameCrc : Obligations.XscrcDeliversTheExpectedFrameCrc := by
  refine ⟨fun arg => decode_of_fields (i := .xscrc arg) rfl rfl rfl, fun arg s => resultCrc5_of_eq ?_ s⟩
  rw [payload_eq_setWidth, field_eq, BitVec.setWidth_and]
  exact BitVec.and_allOnes

/-- Settles O18: the word has the command's two fields, and the result is a sub-field of the split data (`field_eq`). -/
theorem xshubDeliversTheHubAddress : Obligations.XshubDeliversTheHubAddress :=
  ⟨fun arg => decode_of_fields (i := .xshub arg) rfl rfl rfl,
    fun arg s => result_word_of_eq (congrArg (subField · _ 0x7F#32) (field_eq s.layout .split arg)) s⟩

/-- Settles O19: the word has the command's two fields, and the result is a sub-field of the split data (`field_eq`). -/
theorem xsscDeliversTheSplitCompleteFlag : Obligations.XsscDeliversTheSplitCompleteFlag :=
  ⟨fun arg => decode_of_fields (i := .xssc arg) rfl rfl rfl,
    fun arg s => result_word_of_eq (congrArg (subField · _ 0x1#32) (field_eq s.layout .split arg)) s⟩

end Sys2Proof.Machine

/-! ## Exceptions: what is refused, what faults, and the idle core (60_exceptions.md) -/

namespace Sys2Proof.Machine

/-! ### Commands the core does not accept -/

/-- A command the core does not accept is refused by name: EXTR for its width, C5 for its payload (60_exceptions.md
R133). -/
theorem exec_refused_of_not_accepted {i : Instr} (hi : i.accepted = false) (s : State) :
    exec i s = .refused .extractWidth ∨ exec i s = .refused .widePayload := by
  cases i with
  | c5 arg => exact .inr (if_neg (Bool.eq_false_iff.1 hi))
  | extr o w arg => exact .inl (if_neg (Bool.eq_false_iff.1 hi))
  | _ => cases hi

/-- No command faults: the one fault is a host read's (60_exceptions.md R130, R134). -/
theorem exec_ne_fault (i : Instr) (s : State) (r : Fault) : exec i s ≠ .fault r := by
  cases hi : i.accepted with
  | true =>
    obtain ⟨t, hnext⟩ := exec_next_of_accepted hi s
    simp [hnext]
  | false =>
    obtain hwidth | hpayload := exec_refused_of_not_accepted hi s
    · simp [hwidth]
    · simp [hpayload]

/-! ### Unmarked and idle cores -/

/-- On an unmarked core a step is the host's next action (60_exceptions.md R141). -/
theorem step_of_unmarked {s : State} (hs : s.unmarked = true) : step s = hostActs s := by
  obtain ⟨hr, hf⟩ := (unmarked_iff s).1 hs
  simp only [step, takeStep, hr, hf]

/-- On an unmarked core a pending read is what the step performs (60_exceptions.md R134). -/
theorem step_readRsp_of_unmarked {s : State} {rest : List HostAction} (hs : s.unmarked = true)
    (hp : s.pending = .readRsp :: rest) : step s = hostReads rest s := by
  simp only [step_of_unmarked hs, hostActs, hp]

/-- An idle core has nothing to complete (10_state.md R24). -/
theorem complete_of_idle {s : State} (hs : s.inFlight = none) : complete s = .next s := by
  simp only [complete, hs]

/-- A ready core is at an edge without reset what the host's offer makes of it (30_encoding.md R60). -/
theorem clockEdge_of_ready {inp : PortIn} {s : State} (hs : s.Ready) (hrst : inp.rst = false) :
    clockEdge inp s = idleEdge inp s := by
  obtain ⟨hready, hunmarked⟩ := hs
  obtain ⟨hr, hf⟩ := (unmarked_iff s).1 hunmarked
  simp only [clockEdge, liveEdge, hr, hf, hrst, (cmdReady_iff s).1 hready, if_neg Bool.false_ne_true]

/-! ### The statements -/

/-- Settles O40: the acceptance test is the one the commands make, and either way the outcome is no fault. -/
theorem commandsNeverFault : Obligations.CommandsNeverFault :=
  ⟨fun _ s hi => exec_next_of_accepted hi s, fun _ s hi => exec_refused_of_not_accepted hi s, exec_ne_fault⟩

/-- Settles O49: the step is the read, which tests RSP_VALID (`hostRead_cases`). -/
theorem hostReadDeliversOrFaults : Obligations.HostReadDeliversOrFaults := by
  intro s rest hs hp
  rw [step_readRsp_of_unmarked hs hp, hostReads]
  obtain ⟨hv, hread⟩ | ⟨hv, hread⟩ := hostRead_cases s
  · rw [hread, hv]
    exact ⟨fun _ => rfl, nofun⟩
  · rw [hread, hv]
    exact ⟨nofun, fun _ => rfl⟩

/-- Settles O50: with no action the host waits, with no offer the edge accepts nothing. -/
theorem idleCoreStaysAsItIs : Obligations.IdleCoreStaysAsItIs := by
  refine ⟨fun s hs hp => ?_, fun s inp hs hrst hvalid => ?_⟩
  · obtain ⟨hready, hunmarked⟩ := hs
    have hwaits : step s = complete s := by simp only [step_of_unmarked hunmarked, hostActs, hp, hostWaits]
    rw [hwaits, complete_of_idle ((cmdReady_iff s).1 hready)]
  · rw [clockEdge_of_ready hs hrst, idleEdge, hvalid, if_neg Bool.false_ne_true]

end Sys2Proof.Machine

/-! ## Reset and hazards: the reset event, latency and the result register (70_reset_and_hazards.md) -/

namespace Sys2Proof.Machine

/-! ### Commands that deliver no result -/

/-- The three commands without a result meet no refusal (60_exceptions.md R133). -/
theorem accepted_of_not_producesResult {i : Instr} (hi : i.producesResult = false) : i.accepted = true := by
  cases i with
  | nop => rfl
  | c16init => rfl
  | c16byte arg => rfl
  | _ => cases hi

/-- Commands that deliver no result are performed to the end and leave RSP and RSP_VALID (70_reset_and_hazards.md R160). -/
theorem execAll_next_of_not_producesResult {is : List Instr} (his : ∀ i ∈ is, i.producesResult = false) (s : State) :
    ∃ t, execAll is s = .next t ∧ t.rsp = s.rsp ∧ t.rspValid = s.rspValid := by
  induction is generalizing s with
  | nil => exact ⟨s, rfl, rfl, rfl⟩
  | cons i is ih =>
    obtain ⟨hi, hrest⟩ := List.forall_mem_cons.1 his
    obtain ⟨u, hu⟩ := exec_next_of_accepted (accepted_of_not_producesResult hi) s
    obtain ⟨-, hkeeps, -⟩ := onlyResultCommandsWriteRsp
    obtain ⟨hrsp, hvalid⟩ := hkeeps i s u hi hu
    obtain ⟨t, ht, htrsp, htvalid⟩ := ih hrest u
    exact ⟨t, (execAll_cons_of_next hu is).trans ht, htrsp.trans hrsp, htvalid.trans hvalid⟩

/-! ### The reset event -/

theorem step_reset_of_unmarked {s : State} {rest : List HostAction} (hs : s.unmarked = true)
    (hp : s.pending = .reset :: rest) : step s = .next (resetCore { s with pending := rest }) := by
  simp only [step_of_unmarked hs, hostActs, hp, hostResets]

/-- Reset comes before everything else at an edge (70_reset_and_hazards.md R150). -/
theorem clockEdge_of_rst {inp : PortIn} {s : State} (hs : s.Good) (hrst : inp.rst = true) :
    clockEdge inp s = .next (resetCore s) := by
  obtain ⟨hr, hf⟩ := hs
  simp only [clockEdge, liveEdge, hr, hf, hrst, if_true]

/-! ### A command in progress, edge by edge -/

theorem clockRun_cons_of_next {inp : PortIn} {s t : State} (h : clockEdge inp s = .next t) (ins : List PortIn) :
    clockRun (inp :: ins) s = clockRun ins t := by
  rw [clockRun, h]

theorem clockRun_append_of_next {ins : List PortIn} {s t : State} (h : clockRun ins s = .next t) (more : List PortIn) :
    clockRun (ins ++ more) s = clockRun more t := by
  induction ins generalizing s with
  | nil => cases h; rfl
  | cons inp ins ih =>
    cases hedge : clockEdge inp s with
    | next u =>
      rw [clockRun_cons_of_next hedge] at h
      rw [List.cons_append, clockRun_cons_of_next hedge, ih h]
    | fault r => rw [clockRun, hedge] at h; cases h
    | refused r => rw [clockRun, hedge] at h; cases h

/-- A command in progress that the core performs has a completion (60_exceptions.md R130). -/
theorem complete_next_of_accepted {s : State} {f : Flight} {i : Instr} (hf : s.inFlight = some f)
    (hi : decode f.cmd f.arg = .ok i) (haccepted : i.accepted = true) : ∃ t, complete s = .next t := by
  obtain ⟨u, hu⟩ := exec_next_of_accepted haccepted s
  exact ⟨release u, by simp only [complete, hf, hi, hu, mapNext_next]⟩

/-- A ready core takes an offered command that it performs at the edge at which it is offered (30_encoding.md R60). -/
theorem clockEdge_offer_of_accepted {s : State} (hs : s.Ready) {cmd : CmdWord} {arg : Word} {i : Instr}
    (hi : decode cmd arg = .ok i) (haccepted : i.accepted = true) :
    clockEdge (offerInput cmd arg) s = .next (accept cmd arg s) := by
  obtain ⟨t, ht⟩ := complete_next_of_accepted (s := accept cmd arg s) rfl hi haccepted
  rw [clockEdge_offer_of_ready hs, acceptEdge, ht, mapNext_next]

/-- The last cycle of a command in progress is its completion, and one that has no cycle left completes at the next edge
all the same (00_scope.md R10). -/
theorem clockRun_remaining_cycles {ins : List PortIn} {s : State} {f : Flight} (hs : s.Good) (hf : s.inFlight = some f)
    (hlen : ins.length = max f.left 1) (hrst : ∀ inp ∈ ins, inp.rst = false) : clockRun ins s = complete s := by
  obtain hzero | hpos := Nat.eq_zero_or_pos f.left
  · obtain ⟨inp, rfl⟩ : ∃ inp, ins = [inp] := List.length_eq_one_iff.1 (by rw [hlen, hzero]; rfl)
    have hlast : f.left ≤ 1 := by omega
    rw [clockRun_singleton, clockEdge_of_busy hs (hrst inp (List.mem_singleton_self inp)) hf, flightEdge, if_pos hlast]
  · have hne : ins ≠ [] := List.ne_nil_of_length_pos (by omega)
    exact clockRun_of_busy hs hf hne (hlen.trans (max_eq_left hpos)) hrst

/-- Before its last cycle a command in progress only counts its cycles down, whatever the host offers
(70_reset_and_hazards.md R162). -/
theorem clockRun_before_last_cycle {ins : List PortIn} {s : State} {f : Flight} (hs : s.Good)
    (hf : s.inFlight = some f) (hlen : ins.length < f.left) (hrst : ∀ inp ∈ ins, inp.rst = false) :
    clockRun ins s = .next { s with inFlight := some { f with left := f.left - ins.length } } := by
  induction ins generalizing s f with
  | nil => simp only [clockRun, List.length_nil, Nat.sub_zero, ← hf]
  | cons inp ins ih =>
    obtain ⟨hfirst, hrest⟩ := List.forall_mem_cons.1 hrst
    rw [List.length_cons] at hlen ⊢
    have hlong : ¬ f.left ≤ 1 := by omega
    have hleft : f.left - (ins.length + 1) = f.left - 1 - ins.length := by omega
    have hedge : clockEdge inp s = .next { s with inFlight := some { f with left := f.left - 1 } } := by
      rw [clockEdge_of_busy hs hfirst hf, flightEdge, if_neg hlong]
    rw [clockRun_cons_of_next hedge, hleft]
    exact ih (f := { f with left := f.left - 1 }) hs rfl (Nat.lt_sub_of_add_lt hlen) hrest

/-- From the accepting edge on, before its last cycle, a command has done nothing but be accepted. -/
theorem clockRun_offer_before_last_cycle {s : State} (hs : s.Ready) {cmd : CmdWord} {arg : Word} {i : Instr}
    {ins : List PortIn} (hi : decode cmd arg = .ok i) (haccepted : i.accepted = true)
    (hlen : ins.length < Config.latency (opField cmd)) (hrst : ∀ inp ∈ ins, inp.rst = false) :
    clockRun (offerInput cmd arg :: ins) s = .next { s with
      position := s.position + 1
      inFlight := some { cmd := cmd, arg := arg, left := Config.latency (opField cmd) - ins.length } } := by
  have hgood : (accept cmd arg s).Good := (unmarked_iff s).1 hs.2
  rw [clockRun_cons_of_next (clockEdge_offer_of_accepted hs hi haccepted)]
  exact clockRun_before_last_cycle hgood rfl hlen hrst

/-! ### The statements -/

/-- Settles O38: the commands after the result-producing one are performed to the end and leave RSP and RSP_VALID. -/
theorem latestResultStands : Obligations.LatestResultStands := by
  intro before after i s t u hbefore hi hres hafter
  obtain ⟨hsets, -⟩ := onlyResultCommandsWriteRsp
  have hvalid : u.rspValid = true := hsets i t u hres hi
  obtain ⟨v, hv, hrsp, hkept⟩ := execAll_next_of_not_producesResult hafter u
  refine ⟨v, ?_, hrsp, hkept.trans hvalid⟩
  rw [execAll_append_of_next hbefore, execAll_cons_of_next hi, hv]

/-- Settles O56: the remaining cycles complete the command, the core performs it, and completion leaves BUSY = 0. -/
theorem acceptedCommandsCompleteInTime : Obligations.AcceptedCommandsCompleteInTime := by
  refine ⟨fun op => Nat.le_add_left 1 _, fun s f i ins hs hf hi haccepted hlen hrst => ?_⟩
  obtain ⟨t, ht⟩ := complete_next_of_accepted hf hi haccepted
  have hrun : clockRun ins s = complete s := clockRun_remaining_cycles ((unmarked_iff s).1 hs) hf hlen hrst
  exact ⟨t, hrun.trans ht, (cmdReady_iff t).2 (complete_next_idle ht)⟩

/-- Settles O57: before its last cycle a command in progress only counts down, and its acceptance writes the position and
BUSY alone. -/
theorem busyCoreShowsTheOldResult : Obligations.BusyCoreShowsTheOldResult :=
  ⟨fun _ _ _ _ _ hs hi haccepted hlen hrst =>
      ⟨_, clockRun_offer_before_last_cycle hs hi haccepted hlen hrst, rfl, rfl⟩,
    fun s _ _ hs hf hlen hrst => ⟨_, clockRun_before_last_cycle ((unmarked_iff s).1 hs) hf hlen hrst, rfl, rfl⟩⟩

/-- Settles O58: what the edges before the reset have changed, but for the position, is the command in progress, and reset
takes that away. -/
theorem resetAbandonsTheCommandInProgress : Obligations.ResetAbandonsTheCommandInProgress := by
  intro s cmd arg i ins last hs hi haccepted hlen hrst hlast
  have hgood : s.Good := (unmarked_iff s).1 hs.2
  have hbusy := clockRun_offer_before_last_cycle hs hi haccepted hlen hrst
  rw [← List.cons_append, clockRun_append_of_next hbusy, clockRun_singleton]
  exact clockEdge_of_rst hgood hlast

/-- Settles O2: on an unmarked state both forms of the event answer `resetCore`, whose fields are the stated ones. -/
theorem resetEventTakesTheResetState : Obligations.ResetEventTakesTheResetState :=
  ⟨fun _ _ hs hp => ⟨_, step_reset_of_unmarked hs hp, rfl, rfl, rfl, rfl, rfl, rfl, rfl⟩,
    fun s _ hs hrst => ⟨_, clockEdge_of_rst ((unmarked_iff s).1 hs) hrst, rfl, rfl, rfl, rfl, rfl⟩,
    fun _ _ => rfl, fun _ => ⟨rfl, rfl⟩⟩

/-- Settles O54, by the fields of the reset state; no command is in progress there. -/
theorem resetMeetsTheMachineInvariant : Obligations.ResetMeetsTheMachineInvariant :=
  ⟨⟨⟨rfl, rfl⟩, rfl, rfl⟩, rfl, rfl, nofun⟩

end Sys2Proof.Machine
